-- ==== Sys2Proof/Word.lean ====
section
/-!
DEFINITION. The byte and the line, and the plainest arithmetic on machine words (00 R5, R6, R15).
Numbers that the device counts are `Nat`; what crosses a bus is a `Byte` list in the order of its addresses.
-/

namespace Sys2Proof

/-- One byte. -/
abbrev Byte := BitVec 8

/-- The bytes of a line, a slot, a record: lowest address first. -/
abbrev Bytes := List Byte

/-- Bits [lo + n - 1 : lo] of `x` (R6). -/
def bits (x lo n : Nat) : Nat := x / 2 ^ lo % 2 ^ n

/-- Bit [i] of `x`. -/
def bit (x i : Nat) : Bool := x / 2 ^ i % 2 == 1

/-- 1 for true, 0 for false. -/
def b2n (b : Bool) : Nat := if b then 1 else 0

/-- `x` with bits [lo + n - 1 : lo] replaced by `v` modulo 2^n. -/
def setBits (x lo n v : Nat) : Nat :=
  x / 2 ^ (lo + n) * 2 ^ (lo + n) + (v % 2 ^ n) * 2 ^ lo + x % 2 ^ lo

end Sys2Proof
end

