-- ==== Sys2Proof/Types.lean ====
section
/-!
DEFINITION. The types of the commands' operands: Mortar messages (04 R143-R145), CXL.mem requests (04 R178),
Hub cells and frames (03 R105-R121), network packets (14) and what cartridges and the board report.
-/

namespace Sys2Proof

/-- A Mortar message: the header slot of R143, field by field, and the data slots that follow it. -/
structure Msg where
  op : BitVec 8
  tc : BitVec 3
  af : Bool
  vc : BitVec 2
  rsv : Bool
  cls : Bool
  chamber : BitVec 4
  t0s : Bool
  eng : Bool
  status : BitVec 8
  src : BitVec 16
  dst : BitVec 16
  tag : BitVec 20
  xtag : BitVec 16
  addr : BitVec 56
  args : BitVec 64
  data : Bytes
deriving DecidableEq, Repr

/-- OPCODE of a message as a number (R144). -/
def Msg.opc (m : Msg) : Nat := m.op.toNat

/-- The MetaValue of a CXL.mem request (R178). -/
inductive MetaValue where
  | any | shared | invalid | noUpdate
deriving DecidableEq, Repr

/-- A CXL.mem request of the host on a CXL port (R178): its HPA, MetaValue, tag, byte mask, poison bit and data.
`snp` is the tag of the BISnp that a BIRsp answers. -/
structure CxlReq where
  hpa : BitVec 52
  mval : MetaValue
  tag : BitVec 16
  mask : BitVec 64
  poison : Bool
  data : Bytes
  snp : BitVec 16
deriving DecidableEq, Repr

/-- Where the Hub takes a cell (R105, R107): a fabric port, an Ethernet port, a Haresh link, a cartridge slot, or a stop (row, column)
of the mesh. -/
inductive HubDest where
  | fp (n : Fin 16)
  | ep (n : Fin 4)
  | hl (n : Fin 2)
  | cs (n : Fin 9)
  | stop (row col : Fin 8)
deriving DecidableEq, Repr

/-- The Hub port by which a cell leaves (R105, R107): of the eight mesh attachments the one on the side and in the row of its stop,
rows 0 and 1 taken as 2, rows 6 and 7 as 5. -/
def HubDest.port : HubDest → Nat
  | .fp n => n.val
  | .ep n => 16 + n.val
  | .hl n => 20 + n.val
  | .cs n => 22 + n.val
  | .stop row col => (if col.val < 4 then 31 else 35) + (max 2 (min 5 row.val) - 2)

/-- A Hub cell (R105, R112, R113): where it goes, the share and class it is charged to, whether it is a response,
the frame it belongs to and whether it ends that frame. Share 16 is the device's. -/
structure Cell where
  dest : HubDest
  share : Fin 17
  tc : Fin 8
  rsp : Bool
  frame : Nat
  last : Bool
deriving DecidableEq, Repr

/-- The Hub port by which the cell leaves. -/
def Cell.out (c : Cell) : Nat := c.dest.port

/-- A frame for a droppable share (R119-R121). -/
structure HubFrame where
  dest : HubDest
  share : Fin 17
  tc : Fin 8
  /-- best-effort frame of TC3, TC4 or TC5 (R117, R119) -/
  bestEffort : Bool
  cells : Nat
  id : Nat
deriving DecidableEq, Repr

/-- Errors that the line decoder meets in one line: the symbols in error (R618). -/
structure LineErr where
  line : Nat
  syms : List (Fin 36)
deriving DecidableEq, Repr

/-- What a cartridge answers while it is authenticated (15 R610): Identify's serial number and capacity in bytes, and of
its signed identity the serial, the rated life in bytes written, the certificate and the signature. -/
structure CartIdent where
  serial : Nat
  capacity : Nat
  certSerial : Nat
  life : Nat
  cert : Nat
  sig : Nat
deriving DecidableEq, Repr

/-! ### The network (14) -/

/-- What a RoCEv2 packet asks for or answers (R551): one message at a time. -/
inductive RoceOp where
  | read (va : BitVec 64) (rkey len : BitVec 32)
  | write (va : BitVec 64) (rkey : BitVec 32) (data : Bytes)
  | readResponse (data : Bytes)
  | ack
  | nakSequence
  | nakAccess
  | cnp
  /-- SEND, atomics, unreliable datagrams, shared receive queues (R546) -/
  | other
deriving DecidableEq, Repr

/-- What an Ethernet frame carries (R546). -/
inductive NetBody where
  | arp
  | nd
  | echo (data : Bytes)
  | tcp
  | udp (sport dport : BitVec 16) (data : Bytes)
  /-- UDP to port 4791: queue pair number and packet sequence number -/
  | roce (qpn psn : BitVec 24) (op : RoceOp)
  /-- PTP over layer 2 -/
  | ptp (data : Bytes)
  | other
deriving DecidableEq, Repr

/-- An Ethernet frame at a logical port, field by field (R546-R549): whether its FCS is good, its length, its 802.1Q tags
with the VLAN and PCP of the first; IPv4 options or IPv6 extension headers, a fragment; addresses as R548 holds them, DSCP,
ECN. For ARP and neighbour discovery `dst` is the address asked for. -/
structure EthFrame where
  fcsOk : Bool
  len : Nat
  tags : Nat
  vlan : BitVec 12
  pcp : BitVec 3
  v6 : Bool
  options : Bool
  fragment : Bool
  src : BitVec 128
  dst : BitVec 128
  dscp : BitVec 6
  ecn : BitVec 2
  body : NetBody
deriving DecidableEq, Repr

end Sys2Proof
end

