-- ==== Sys2Proof/Syntax.lean ====
section
/-!
DEFINITION. The commands of the device: one constructor for each row of the opcode table, in its order,
those with no operand last. A docstring gives the row's mnemonic and the rule that the table names for it.
-/

namespace Sys2Proof

/-- A command. -/
inductive Instr where
  /-- ASSIGN (R62) -/
  | assign (chamber : Fin 16)
  /-- HDM_COMMIT (R76) -/
  | hdmCommit (port : Fin 16) (dec : Fin 8) (base : BitVec 52) (size : BitVec 64)
  /-- FLIT_RECEIVE (R94); ports 16 and 17 are the Haresh links -/
  | flitReceive (port : Fin 18) (raw : Bytes)
  /-- ACK_TIMER (R96) -/
  | ackTimer (port : Fin 18)
  /-- RETRAIN_DONE (R101) -/
  | retrainDone (port : Fin 16)
  /-- LANE_LOSS_OF_LOCK (R102) -/
  | laneLossOfLock (port : Fin 16) (lane : Fin 10)
  /-- LANE_FEC_WINDOW (R102) -/
  | laneFecWindow (port : Fin 16) (lane : Fin 10)
  /-- PORT_TRAINING_DONE (R101) -/
  | portTrainingDone (port : Fin 16) (ok : Bool) (width4 : Bool) (rate : BitVec 2)
  /-- TRAINING_TIMEOUT (R101) -/
  | trainingTimeout (port : Fin 16)
  /-- HUB_CELL_ARRIVAL (R114) -/
  | hubCellArrival (input : Fin 40) (cell : Cell)
  /-- HUB_FRAME_ARRIVAL (R120) -/
  | hubFrameArrival (frame : HubFrame)
  /-- RDSHARED (R152) -/
  | rdShared (port : Fin 16) (msg : Msg)
  /-- RDOWN (R152) -/
  | rdOwn (port : Fin 16) (msg : Msg)
  /-- RDONCE (R152) -/
  | rdOnce (port : Fin 16) (msg : Msg)
  /-- WRLINE (R152) -/
  | wrLine (port : Fin 16) (msg : Msg)
  /-- WRPARTIAL (R152) -/
  | wrPartial (port : Fin 16) (msg : Msg)
  /-- ATOMIC (R176) -/
  | atomic (port : Fin 16) (msg : Msg)
  /-- SWEEP (R158) -/
  | sweep (port : Fin 16) (msg : Msg)
  /-- FENCE (R175) -/
  | fence (port : Fin 16) (msg : Msg)
  /-- EVICT (R156) -/
  | evict (port : Fin 16) (msg : Msg)
  /-- RECALL (R134) -/
  | recallMsg (port : Fin 16) (msg : Msg)
  /-- INVAL (R134) -/
  | invalMsg (port : Fin 16) (msg : Msg)
  /-- RETRY (R163) -/
  | retry (port : Fin 16) (msg : Msg)
  /-- GRANT (R134) -/
  | grant (port : Fin 16) (msg : Msg)
  /-- DATA (R134) -/
  | data (port : Fin 16) (msg : Msg)
  /-- POISONDATA (R64) -/
  | poisonData (port : Fin 16) (msg : Msg)
  /-- ACK (R174) -/
  | ack (port : Fin 16) (msg : Msg)
  /-- TIER_SERVICE_DONE (R186) -/
  | tierServiceDone (id : Nat) (errs : List LineErr)
  /-- RECALL_TIMEOUT (R172) -/
  | recallTimeout (line : Nat) (agent : BitVec 16)
  /-- INVAL_TIMEOUT (R173) -/
  | invalTimeout (line : Nat) (agent : BitVec 16)
  /-- REQ_TIMEOUT (R174) -/
  | reqTimeout (src : BitVec 16) (tag : BitVec 20)
  /-- TICKET_EXPIRE (R164) -/
  | ticketExpire (ticket : Nat)
  /-- HOLD (R167) -/
  | hold (id : Nat)
  /-- FENCE_COMPLETE (R175) -/
  | fenceComplete (agent : BitVec 16)
  /-- RELEASE_ATOMIC_SEND (R210) -/
  | releaseAtomicSend (id : Nat)
  /-- MEMRD (R178) -/
  | memRd (port : Fin 16) (req : CxlReq)
  /-- MEMRDDATA (R178) -/
  | memRdData (port : Fin 16) (req : CxlReq)
  /-- MEMWR (R178) -/
  | memWr (port : Fin 16) (req : CxlReq)
  /-- MEMWRPTL (R178) -/
  | memWrPtl (port : Fin 16) (req : CxlReq)
  /-- MEMCLNEVCT (R178) -/
  | memClnEvct (port : Fin 16) (req : CxlReq)
  /-- MEMINV (R178) -/
  | memInv (port : Fin 16) (req : CxlReq)
  /-- BIRSPS (R178) -/
  | biRspS (port : Fin 16) (req : CxlReq)
  /-- BIRSPI (R178) -/
  | biRspI (port : Fin 16) (req : CxlReq)
  /-- BICONFLICT (R178) -/
  | biConflict (port : Fin 16) (req : CxlReq)
  /-- CHAMBER_ENABLE (R245) -/
  | chamberEnable (chamber : Fin 16)
  /-- CHAMBER_DISABLE (R243) -/
  | chamberDisable (chamber : Fin 16)
  /-- CHAMBER_RESET (R247) -/
  | chamberReset (chamber : Fin 16)
  /-- DRAIN_TIMEOUT (R243) -/
  | drainTimeout (chamber : Fin 16)
  /-- DISABLE_COMPLETE (R243) -/
  | disableComplete (chamber : Fin 16)
  /-- CHAMBER_RESET_DONE (R248) -/
  | chamberResetDone (chamber : Fin 16)
  /-- DOORBELL (R236) -/
  | doorbell (chamber : Fin 16) (ring : Fin 64) (tail : BitVec 32)
  /-- COMPLETION_HEAD_WRITE (R258) -/
  | completionHeadWrite (chamber : Fin 16) (ring : Fin 64) (chead : BitVec 32)
  /-- RING_ENABLE (R257) -/
  | ringEnable (chamber : Fin 16) (ring : Fin 64) (sizeLog2 : BitVec 5)
  /-- RING_DISABLE (R257) -/
  | ringDisable (chamber : Fin 16) (ring : Fin 64)
  /-- DESCRIPTOR_ADMIT (R237) -/
  | descriptorAdmit (chamber : Fin 16) (ring : Fin 64)
  /-- DESCRIPTOR_FETCH_DONE (R760) -/
  | descriptorFetchDone (id : Nat)
  /-- NOP (R226) -/
  | nop (id : Nat)
  /-- ATOMIC_DESCRIPTOR (R227) -/
  | atomicDescriptor (id : Nat)
  /-- SIGNAL_AGE_TIMER (R239) -/
  | signalAgeTimer (chamber : Fin 16) (ring : Fin 64)
  /-- OP_TIMEOUT (R246) -/
  | opTimeout (id : Nat)
  /-- COPY (R274) -/
  | copy (id : Nat)
  /-- PLACE_STAGE (R275) -/
  | placeStage (id : Nat)
  /-- PLACE_PROMOTE (R275) -/
  | placePromote (id : Nat)
  /-- PLACE_PIN (R275) -/
  | placePin (id : Nat)
  /-- PLACE_UNPIN (R275) -/
  | placeUnpin (id : Nat)
  /-- PLACE_RELEASE (R275) -/
  | placeRelease (id : Nat)
  /-- FRAME_FILL_DONE (R269) -/
  | frameFillDone (staging : Bool) (frame : Nat) (bad : BitVec 16)
  /-- SETTLE (R281) -/
  | settle (id : Nat)
  /-- SETTLE_START (R283) -/
  | settleStart (id : Nat)
  /-- SETTLE_CHUNK_DONE (R283) -/
  | settleChunkDone (slot : Fin 64) (errs : List LineErr) (bad : List Nat)
  /-- SCHEDULE (R276) -/
  | schedule (id : Nat)
  /-- SCHEDULE_ENTRY_TRIGGER (R278) -/
  | scheduleEntryTrigger (id : Nat) (entry : Nat)
  /-- SCHEDULE_TIMER (R277) -/
  | scheduleTimer (id : Nat) (entry : Nat)
  /-- CART_TRANSFER (R292) -/
  | cartTransfer (slot : BitVec 4) (target : BitVec 4)
  /-- CART_TAKEOVER (R292) -/
  | cartTakeover (slot : BitVec 4) (target : BitVec 4)
  /-- CART_RETIRE (R292) -/
  | cartRetire (slot : BitVec 4)
  /-- CART_RELEASE (R292) -/
  | cartRelease (slot : BitVec 4)
  /-- NVME_COMMAND_DONE (R288) -/
  | nvmeCommandDone (slot : Fin 9) (command : Nat) (bad : BitVec 16) (ident : CartIdent)
  /-- CART_CMD_TIMEOUT (R291) -/
  | cartCmdTimeout (slot : Fin 9)
  /-- CART_FAILURE_REPORT (R291) -/
  | cartFailureReport (slot : Fin 9)
  /-- CART_REMOVED (R291) -/
  | cartRemoved (slot : Fin 9)
  /-- CART_INSERTED (R610) -/
  | cartInserted (slot : Fin 9)
  /-- CART_LINK_UP (R610) -/
  | cartLinkUp (slot : Fin 9)
  /-- CART_AUTH_TIMEOUT (R610) -/
  | cartAuthTimeout (slot : Fin 9)
  /-- PTE_READ_DONE (R304) -/
  | pteReadDone (id : Nat)
  /-- FAULT_BATCH_AGE (R320) -/
  | faultBatchAge (chamber : Fin 16)
  /-- FAULT_RESUME (R323) -/
  | faultResume (chamber : Fin 16) (batch : BitVec 32)
  /-- FQ_HEAD_WRITE (R338) -/
  | fqHeadWrite (chamber : Fin 16) (head : BitVec 32)
  /-- XINV (R311) -/
  | xinv (port : Fin 16) (msg : Msg)
  /-- INVALIDATE_REGISTER (R312) -/
  | invalidateRegister (chamber : Fin 16) (page : BitVec 36) (all : Bool) (pages : BitVec 24)
  /-- XINV_ACK_READY (R313) -/
  | xinvAckReady (chamber : Fin 16)
  /-- XINV_ACK_TIMEOUT (R313) -/
  | xinvAckTimeout (chamber : Fin 16)
  /-- ROOT_WRITE (R315) -/
  | rootWrite (chamber : Fin 16) (root : BitVec 41)
  /-- RUN (R350) -/
  | run (id : Nat)
  /-- RUN_START (R352) -/
  | runStart (id : Nat)
  /-- LAYLIST_FETCH_DONE (R353) -/
  | layListFetchDone (id : Nat)
  /-- NOP_BRICK (R360) -/
  | nopBrick (mason : Fin 144)
  /-- END (R360) -/
  | endBrick (mason : Fin 144)
  /-- SYNC (R356) -/
  | sync (mason : Fin 144)
  /-- LOOP (R361) -/
  | loop (mason : Fin 144)
  /-- SETA (R360) -/
  | seta (mason : Fin 144)
  /-- SIGNAL (R360) -/
  | signal (mason : Fin 144)
  /-- SEMWAIT (R360) -/
  | semwait (mason : Fin 144)
  /-- SEMSET (R360) -/
  | semset (mason : Fin 144)
  /-- SEMWAIT_RELEASE (R349) -/
  | semwaitRelease (mason : Fin 144)
  /-- ATOMIC_BRICK (R364) -/
  | atomicBrick (mason : Fin 144)
  /-- TLOAD (R363) -/
  | tload (mason : Fin 144)
  /-- TSTORE (R363) -/
  | tstore (mason : Fin 144)
  /-- TCOPY (R372) -/
  | tcopy (mason : Fin 144)
  /-- MMA (R366) -/
  | mma (mason : Fin 144)
  /-- ACCST (R368) -/
  | accst (mason : Fin 144)
  /-- ACCLD (R368) -/
  | accld (mason : Fin 144)
  /-- VOP (R371) -/
  | vop (mason : Fin 144)
  /-- VRED (R372) -/
  | vred (mason : Fin 144)
  /-- ATTEND_BRICK (R370) -/
  | attendBrick (mason : Fin 144)
  /-- BRICK_DONE (R355) -/
  | brickDone (mason : Fin 144) (unit : Fin 4)
  /-- BRICK_TIMEOUT (R383) -/
  | brickTimeout (mason : Fin 144)
  /-- RUN_COMPLETE (R354) -/
  | runComplete (id : Nat)
  /-- SEM_WRITE (R388) -/
  | semWrite (course : Fin 16) (sem : Fin 64) (value : BitVec 32)
  /-- COMPRESS (R414) -/
  | compress (id : Nat)
  /-- EXPAND (R415) -/
  | expand (id : Nat)
  /-- TABLES (R409) -/
  | tables (id : Nat)
  /-- TABLES_INSTALL (R410) -/
  | tablesInstall (id : Nat)
  /-- CREATE (R442) -/
  | create (id : Nat)
  /-- APPEND (R444) -/
  | append (id : Nat)
  /-- HOARD_SEAL (R445) -/
  | hoardSeal (id : Nat)
  /-- HOARD_ATTEND (R450) -/
  | hoardAttend (id : Nat)
  /-- ATTEND_FALLBACK_WAIT (R452) -/
  | attendFallbackWait (id : Nat)
  /-- FETCH (R447) -/
  | fetch (id : Nat)
  /-- DROP (R448) -/
  | drop (id : Nat)
  /-- HOARD_PAGES_FREE (R448) -/
  | hoardPagesFree (chamber : Fin 16)
  /-- PIN (R448) -/
  | pin (id : Nat)
  /-- RELINK (R446) -/
  | relink (id : Nat)
  /-- HREQ (R437) -/
  | hreq (port : Fin 16) (msg : Msg)
  /-- HRSP (R437) -/
  | hrsp (port : Fin 16) (msg : Msg)
  /-- HXFER (R455) -/
  | hxfer (port : Fin 16) (msg : Msg)
  /-- HCTL_COMMIT_REQ (R455) -/
  | hctlCommitReq (port : Fin 16) (msg : Msg)
  /-- HCTL_COMMITTED (R455) -/
  | hctlCommitted (port : Fin 16) (msg : Msg)
  /-- HCTL_REFUSED (R456) -/
  | hctlRefused (port : Fin 16) (msg : Msg)
  /-- HCTL_QUERY (R456) -/
  | hctlQuery (port : Fin 16) (msg : Msg)
  /-- HCTL_ABORT (R456) -/
  | hctlAbort (port : Fin 16) (msg : Msg)
  /-- BUCKET_WRITE (R436) -/
  | bucketWrite (chamber : Fin 16) (bucket : Fin 256) (dev : BitVec 8) (prev : BitVec 8) (prevV : Bool)
  /-- HANDOFF_TIMEOUT (R456) -/
  | handoffTimeout (id : Nat)
  /-- HANDOFF_QUERY_TIMER (R456) -/
  | handoffQueryTimer (id : Nat)
  /-- LOOKUP2 (R488) -/
  | lookup2 (id : Nat)
  /-- LOOKUP (R489) -/
  | lookup (id : Nat)
  /-- SCATTER (R499) -/
  | scatter (id : Nat)
  /-- PUBLISH (R483) -/
  | publish (id : Nat)
  /-- REPLICATE (R503) -/
  | replicate (id : Nat)
  /-- MIGRATE (R505) -/
  | migrate (id : Nat)
  /-- TLKUP (R493) -/
  | tlkup (port : Fin 16) (msg : Msg)
  /-- TRSP (R493) -/
  | trsp (port : Fin 16) (msg : Msg)
  /-- TGRAD (R500) -/
  | tgrad (port : Fin 16) (msg : Msg)
  /-- TCTL_STAGE (R483) -/
  | tctlStage (port : Fin 16) (msg : Msg)
  /-- TCTL_FLIP (R483) -/
  | tctlFlip (port : Fin 16) (msg : Msg)
  /-- TCTL_ABANDON (R484) -/
  | tctlAbandon (port : Fin 16) (msg : Msg)
  /-- TCTL_QUERY (R485) -/
  | tctlQuery (port : Fin 16) (msg : Msg)
  /-- TCTL_RESERVE (R505) -/
  | tctlReserve (port : Fin 16) (msg : Msg)
  /-- TCTL_COPY (R505) -/
  | tctlCopy (port : Fin 16) (msg : Msg)
  /-- TCTL_LOG (R506) -/
  | tctlLog (port : Fin 16) (msg : Msg)
  /-- TCTL_ROUTE (R505) -/
  | tctlRoute (port : Fin 16) (msg : Msg)
  /-- TCTL_RELEASE (R508) -/
  | tctlRelease (port : Fin 16) (msg : Msg)
  /-- TCTL_REPL (R503) -/
  | tctlRepl (port : Fin 16) (msg : Msg)
  /-- TCTL_DONE (R483) -/
  | tctlDone (port : Fin 16) (msg : Msg)
  /-- TCTL_MISMATCH (R484) -/
  | tctlMismatch (port : Fin 16) (msg : Msg)
  /-- TCTL_REFUSED (R508) -/
  | tctlRefused (port : Fin 16) (msg : Msg)
  /-- PUBLISH_TIMEOUT (R484) -/
  | publishTimeout (key : Nat)
  /-- FLIP_RESEND_TIMER (R484) -/
  | flipResendTimer (key : Nat)
  /-- PUBLISH_QUERY_TIMER (R485) -/
  | publishQueryTimer (key : Nat)
  /-- VERSION_RETIRE (R486) -/
  | versionRetire (chamber : Fin 16) (table : BitVec 28)
  /-- MOVE_TIMEOUT (R508) -/
  | moveTimeout (key : Nat)
  /-- ROUTE_RESEND_TIMER (R508) -/
  | routeResendTimer (key : Nat)
  /-- SKETCH_WRITE (R512) -/
  | sketchWrite (slot : Fin 8) (chamber : Fin 16) (table : BitVec 28) (en : Bool)
  /-- SEARCH (R527) -/
  | search (id : Nat)
  /-- GALLERY_WAIT_TIMEOUT (R531) -/
  | galleryWaitTimeout (id : Nat)
  /-- INSERT (R536) -/
  | insert (id : Nat)
  /-- DELETE (R537) -/
  | delete (id : Nat)
  /-- COMPACT (R538) -/
  | compact (id : Nat)
  /-- COMPACT_LEAF_START (R539) -/
  | compactLeafStart (id : Nat)
  /-- GQRY (R534) -/
  | gqry (port : Fin 16) (msg : Msg)
  /-- GRSP (R535) -/
  | grsp (port : Fin 16) (msg : Msg)
  /-- GAL_CACHE_CLR (R544) -/
  | galCacheClr (chamber : Fin 16)
  /-- ETH_FRAME_RECEIVE (R547) -/
  | ethFrameReceive (port : Fin 8) (frame : EthFrame)
  /-- ARP_ND_ECHO (R546) -/
  | arpNdEcho (port : Fin 8) (frame : EthFrame)
  /-- PFC_PAUSE_RECEIVE (R549) -/
  | pfcPauseReceive (port : Fin 8) (prio : Fin 8) (quanta : BitVec 16)
  /-- RDMA_READ (R555) -/
  | rdmaRead (port : Fin 8) (frame : EthFrame)
  /-- RDMA_WRITE (R555) -/
  | rdmaWrite (port : Fin 8) (frame : EthFrame)
  /-- RDMA_READ_RESPONSE (R556) -/
  | rdmaReadResponse (port : Fin 8) (frame : EthFrame)
  /-- ROCE_ACK (R551) -/
  | roceAck (port : Fin 8) (frame : EthFrame)
  /-- ROCE_NAK (R551) -/
  | roceNak (port : Fin 8) (frame : EthFrame)
  /-- CNP (R550) -/
  | cnp (port : Fin 8) (frame : EthFrame)
  /-- RATE_INCREASE_TIMER (R550) -/
  | rateIncreaseTimer (qp : Fin 4096)
  /-- QP_RETRANSMIT_TIMEOUT (R551) -/
  | qpRetransmitTimeout (qp : Fin 4096)
  /-- QP_RESET (R572) -/
  | qpReset (qp : Fin 4096)
  /-- QP_RTS (R572) -/
  | qpRts (qp : Fin 4096)
  /-- WFLUSH (R560) -/
  | wflush (id : Nat)
  /-- WINVAL (R560) -/
  | winval (id : Nat)
  /-- PORTAL_V2_REQUEST (R566) -/
  | portalV2Request (port : Fin 8) (frame : EthFrame)
  /-- PORTAL_V1_REQUEST (R569) -/
  | portalV1Request (port : Fin 8) (frame : EthFrame)
  /-- PORTAL_REPLY (R566) -/
  | portalReply (key : Nat)
  /-- REPLY_CACHE_EXPIRE (R568) -/
  | replyCacheExpire (src : Nat) (sport : BitVec 16) (reqid : Nat)
  /-- PTP_EVENT_MESSAGE (R552) -/
  | ptpEventMessage (port : Fin 8) (frame : EthFrame)
  /-- BND_OPEN (R589) -/
  | bndOpen (target : BitVec 4) (index : BitVec 4)
  /-- BND_DATA (R589) -/
  | bndData (arg : BitVec 32)
  /-- BND_SELECT (R612) -/
  | bndSelect (slot : BitVec 32)
  /-- CHB_APPLY (R595) -/
  | chbApply (chamber : Fin 16)
  /-- JREAD (R612) -/
  | jread (arg : BitVec 32)
  /-- SCRUB (R627) -/
  | scrub (id : Nat) (errs : List LineErr) (bad : List Nat)
  /-- SCRUB_START (R630) -/
  | scrubStart (t2 : Bool) (errs : List LineErr) (bad : List Nat)
  /-- LOG_FREE (R645) -/
  | logFree (all : Bool) (slot : BitVec 13)
  /-- BACKGROUND_DEFER (R632) -/
  | backgroundDefer (cls : Fin 3) (unit : Fin 32)
  /-- HBM_REFRESH (R631) -/
  | hbmRefresh (unit : Fin 32)
  /-- CALIBRATION (R631) -/
  | calibration (unit : Fin 32)
  /-- TSCORE (R654) -/
  | tscore (port : Option (Fin 16)) (msg : Msg)
  /-- TEXPEL (R658) -/
  | texpel (port : Option (Fin 16)) (msg : Msg)
  /-- REINSTATE (R663) -/
  | reinstate (device : BitVec 8)
  /-- EXPEL (R663) -/
  | expel (device : BitVec 8)
  /-- PROBATION (R663) -/
  | probation (device : BitVec 8)
  /-- EMARK (R670) -/
  | emark (port : Fin 16) (msg : Msg)
  /-- RERTE (R674) -/
  | rerte (port : Fin 16) (msg : Msg)
  /-- LREVOKE (R676) -/
  | lrevoke (port : Fin 16) (msg : Msg)
  /-- CMP_REVOKE (R675) -/
  | cmpRevoke (first : BitVec 20) (count : BitVec 12)
  /-- BMIR (R666) -/
  | bmir (port : Fin 16) (msg : Msg)
  /-- BMIR_TIMEOUT (R667) -/
  | bmirTimeout (pair : Fin 64) (bseq : BitVec 32)
  /-- BUTTRESS_ENABLE (R665) -/
  | buttressEnable (pair : Fin 64)
  /-- BUTTRESS_COPY_DONE (R665) -/
  | buttressCopyDone (pair : Fin 64)
  /-- CMP_STAGE (R672) -/
  | cmpStage (epoch : BitVec 8)
  /-- CMP_COMMIT (R671) -/
  | cmpCommit (epoch : BitVec 8)
  /-- RESOLVE (R678) -/
  | resolve (winner : BitVec 8) (chamber : Fin 16) (slot : BitVec 20)
  /-- POWER_APPLIED (R741) -/
  | powerApplied (modules : List Nat)
  /-- PG_RISE (R741) -/
  | pgRise (rail : Fin 9)
  /-- PG_FALL (R742) -/
  | pgFall (rail : Fin 9)
  /-- PG_TIMEOUT (R742) -/
  | pgTimeout (rail : Fin 9)
  /-- READY_SIGNAL (R700) -/
  | readySignal (domain : Fin 264)
  /-- RISE_TIMEOUT (R701) -/
  | riseTimeout (domain : Fin 264)
  /-- CLOCK_FAULT (R692) -/
  | clockFault (refLost : Bool)
  /-- SHADE_IDLE (R696) -/
  | shadeIdle (domain : Fin 264)
  /-- DIM_IDLE (R696) -/
  | dimIdle (domain : Fin 264)
  /-- PORT_RESET (R703) -/
  | portReset (port : Fin 16)
  /-- THERMAL_SAMPLE (R752) -/
  | thermalSample (temps : List Nat)
  /-- REGISTER_WRITE (R9) -/
  | registerWrite (iface : Fin 18) (offset : BitVec 32) (len : Nat) (value : BitVec 64)
  /-- WIDE_REGISTER_CAPTURE (R724) -/
  | wideRegisterCapture (iface : Fin 18) (offset : BitVec 32)
  /-- MOVE_GRACE_END (R504) -/
  | moveGraceEnd (id : Nat)
  /-- RECEIVED_PAUSE_EXPIRY (R549) -/
  | receivedPauseExpiry (port : Fin 8) (prio : Fin 8)
  /-- SEAL (R60) -/
  | seal
  /-- FREE (R60) -/
  | free
  /-- LEND_ATTACH (R63) -/
  | lendAttach
  /-- REMOTE_ATTACH (R71) -/
  | remoteAttach
  /-- DETACH (R58) -/
  | detach
  /-- EXT_CMD_BAD_OP (R71) -/
  | extCmdBadOp
  /-- EXTENT_ZEROING_DONE (R757) -/
  | extentZeroingDone
  /-- EXTENT_DRAIN_DONE (R60) -/
  | extentDrainDone
  /-- HUB_MATCH (R109) -/
  | hubMatch
  /-- HUB_EGRESS (R118) -/
  | hubEgress
  /-- SWEEP_SCAN_DONE (R159) -/
  | sweepScanDone
  /-- MEMSPECRD (R178) -/
  | memSpecRd
  /-- BICONFLICTACK (R178) -/
  | biConflictAck
  /-- CART_CMD_BAD_OP (R299) -/
  | cartCmdBadOp
  /-- TRANSFER_EXTENT_DONE (R292) -/
  | transferExtentDone
  /-- ACCESS_COUNTER_DECAY (R330) -/
  | accessCounterDecay
  /-- SKETCH_DECAY (R501) -/
  | sketchDecay
  /-- BND_CLOSE (R589) -/
  | bndClose
  /-- BND_ABANDON (R612) -/
  | bndAbandon
  /-- LOAD (R591) -/
  | load
  /-- ATTEST (R609) -/
  | attest
  /-- FLOOR_PROPOSE (R604) -/
  | floorPropose
  /-- BND_CMD_BAD_OP (R612) -/
  | bndCmdBadOp
  /-- JOURNAL_RECORD_COMMIT (R588) -/
  | journalRecordCommit
  /-- TELEMETRY_TICK (R643) -/
  | telemetryTick
  /-- TALLY_TICK (R652) -/
  | tallyTick
  /-- REVOKE_TIMEOUT (R676) -/
  | revokeTimeout
  /-- CMP_ABORT (R672) -/
  | cmpAbort
  /-- GRACE_END (R671) -/
  | graceEnd
  /-- RESET_N_RELEASE (R743) -/
  | resetNRelease
  /-- RESET_N_HOLD (R743) -/
  | resetNHold
  /-- AON_UNDERVOLTAGE (R744) -/
  | aonUndervoltage
  /-- WAKE_N (R698) -/
  | wakeN
  /-- HARESH_SIGNAL_DETECT (R698) -/
  | hareshSignalDetect
  /-- DARK (R697) -/
  | dark
  /-- WAKE (R713) -/
  | wake
  /-- COLD_RESET (R703) -/
  | coldReset
  /-- WARM_RESET (R705) -/
  | warmReset
  /-- INLET_HOT (R755) -/
  | inletHot
  /-- PTP_LOSS_OF_LOCK (R552) -/
  | ptpLossOfLock
deriving DecidableEq, Repr

end Sys2Proof
end

