-- ==== Sys2Proof/Machine/Store.lean ====
section
/-!
DEFINITION. Sparse data by key, as lists with strictly rising keys.
`kget`, `kput`, `kdel` serve tables of entries that are present or absent; `sget`, `sput` serve tables in which every key
has a value and only the values that differ from the default are listed (registers, memory bytes).
-/

namespace Sys2Proof.Machine

/-- A table from keys to values. -/
abbrev Map (α : Type) := List (Nat × α)

/-- The entry at `k`, when there is one. -/
def kget {α : Type} : Map α → Nat → Option α
  | [], _ => none
  | (k', v) :: m, k => if k' = k then some v else kget m k

/-- The table with `v` at `k`. -/
def kput {α : Type} : Map α → Nat → α → Map α
  | [], k, v => [(k, v)]
  | (k', v') :: m, k, v =>
    if k < k' then (k, v) :: (k', v') :: m
    else if k = k' then (k, v) :: m
    else (k', v') :: kput m k v

/-- The table with nothing at `k`. -/
def kdel {α : Type} : Map α → Nat → Map α
  | [], _ => []
  | (k', v') :: m, k => if k' = k then kdel m k else (k', v') :: kdel m k

/-- The table with `f` applied to the entry at `k`, when there is one. -/
def kmod {α : Type} (m : Map α) (k : Nat) (f : α → α) : Map α :=
  match kget m k with
  | some v => kput m k (f v)
  | none => m

/-- The value at `k`, `d` where none is listed. -/
def sget {α : Type} (d : α) (m : Map α) (k : Nat) : α := (kget m k).getD d

/-- The table with value `v` at `k`, listing nothing equal to the default `d`. -/
def sput {α : Type} [DecidableEq α] (d : α) (m : Map α) (k : Nat) (v : α) : Map α :=
  if v = d then kdel m k else kput m k v

/-- Every key of the list is above `k`. -/
def keysAbove {α : Type} (k : Nat) : Map α → Bool
  | [] => true
  | (k', _) :: m => decide (k < k') && keysAbove k m

/-- The keys rise strictly. -/
def keysRise {α : Type} : Map α → Bool
  | [] => true
  | (k, _) :: m => keysAbove k m && keysRise m

/-- The canonical form of a table with a default: keys rise strictly and no entry equals the default of its key. -/
def canonical {α : Type} [DecidableEq α] (d : Nat → α) (m : Map α) : Bool :=
  keysRise m && m.all (fun e => decide (e.2 ≠ d e.1))

/-- The lowest key not in use at or above `n`, for a table with strictly rising keys. -/
def freshKey {α : Type} : Map α → Nat → Nat
  | [], n => n
  | (k, _) :: m, n => if k = n then freshKey m (n + 1) else if k < n then freshKey m n else n

end Sys2Proof.Machine
end

