-- ==== Sys2Proof/Machine/Bits.lean ====
section
/-!
DEFINITION. Bytes and numbers: little-endian fields (R5), serial arithmetic (R94, R236), saturation (R640),
two's complement, lists of lines.
-/

namespace Sys2Proof.Machine

/-- The `n` low bytes of `x`, least significant first (R5). -/
def leBytes : Nat → Nat → Bytes
  | 0, _ => []
  | n + 1, x => BitVec.ofNat 8 x :: leBytes n (x / 256)

/-- The number that bytes spell, least significant first (R5). -/
def ofLE : Bytes → Nat
  | [] => 0
  | b :: l => b.toNat + 256 * ofLE l

/-- Bytes [at : at + n) of `l` as a number; bytes beyond the end read 0. -/
def field (l : Bytes) (off n : Nat) : Nat := ofLE ((l.drop off).take n)

/-- `n` zero bytes. -/
def zeros (n : Nat) : Bytes := List.replicate n 0

/-- `l` cut or filled with zero bytes to length `n`. -/
def padTo (n : Nat) (l : Bytes) : Bytes := (l ++ zeros n).take n

/-- `l` with `v` written at `off`. -/
def putBytes (l : Bytes) (off : Nat) (v : Bytes) : Bytes := l.take off ++ v ++ l.drop (off + v.length)

/-- `new` where the mask bit of the byte is 1, `old` elsewhere (WrPartial, R145). -/
def mergeMask (mask : Nat) : Bytes → Bytes → Bytes
  | [], _ => []
  | o :: old, [] => o :: old
  | o :: old, n :: new => (if mask % 2 = 1 then n else o) :: mergeMask (mask / 2) old new

/-- `x` modulo 2^32. -/
def u32 (x : Nat) : Nat := x % 2 ^ 32

/-- `a - b` modulo 2^w. -/
def subMod (w a b : Nat) : Nat := (a + 2 ^ w - b % 2 ^ w) % 2 ^ w

/-- Serial arithmetic modulo 2^w: `a` is after `b` (R236, R323). -/
def serialAfter (w a b : Nat) : Bool := decide (0 < subMod w a b ∧ subMod w a b < 2 ^ (w - 1))

/-- `x + n` stopping at the largest value of `w` bits (R640). -/
def satAdd (w x n : Nat) : Nat := min (x + n) (2 ^ w - 1)

/-- `x` clamped into [lo, hi]. -/
def clamp (lo hi x : Nat) : Nat := max lo (min hi x)

/-- The integer that the `w` low bits of `x` spell in two's complement. -/
def toInt (w x : Nat) : Int :=
  let y := x % 2 ^ w
  if y < 2 ^ (w - 1) then (y : Int) else (y : Int) - 2 ^ w

/-- The `w` low bits of an integer in two's complement. -/
def ofInt (w : Nat) (i : Int) : Nat := (i % (2 ^ w : Int)).toNat

/-- The multiples of `step` that the byte range [a, a + n) touches: for lines, blocks and pages. -/
def units (step a n : Nat) : List Nat :=
  if n = 0 then [] else (List.range ((a + n - 1) / step - a / step + 1)).map (fun k => a / step + k)

/-- The part of the byte range [a, a + n) that lies in unit `u` of `step` bytes: its first byte and length. -/
def unitPart (step u a n : Nat) : Nat × Nat :=
  let lo := max a (u * step)
  let hi := min (a + n) ((u + 1) * step)
  (lo, hi - lo)

/-- `l` cut into pieces of `n` bytes, at most `fuel` of them. -/
def chunks {α : Type} (n : Nat) : Nat → List α → List (List α)
  | 0, _ => []
  | fuel + 1, l => if l.isEmpty then [] else l.take n :: chunks n fuel (l.drop n)

/-- The first index of a list whose element satisfies `p`. -/
def findIdx {α : Type} (p : α → Bool) (l : List α) : Option Nat := l.findIdx? p

/-- Bit k set for each k of the list. -/
def maskOf (l : List Nat) : Nat := l.foldl (fun m k => m ||| 2 ^ k) 0

end Sys2Proof.Machine
end

