-- ==== Sys2Proof/Machine/Fec.lean ====
section
/-!
DEFINITION. The protection of a Mortar flit: CRC-64 (03 R91) and two RS(128,120) codewords (03 R92).
The first byte of a codeword is the coefficient of its highest power (log 20).
-/

namespace Sys2Proof.Machine

/-! ### CRC (R91) -/

/-- One bit of the CRC register. -/
def crcBit (r : BitVec 64) (b : Bool) : BitVec 64 :=
  if (r.getMsbD 0 ^^ b) = true then (r <<< 1) ^^^ 0x42F0E1EBA9EA3693#64 else r <<< 1

/-- One byte, most significant bit first. -/
def crcByte (r : BitVec 64) (b : Byte) : BitVec 64 :=
  (List.range 8).foldl (fun r i => crcBit r (b.getMsbD i)) r

/-- CRC-64 of bytes in order (R91). -/
def crc64 (l : Bytes) : BitVec 64 := (l.foldl crcByte (BitVec.allOnes 64)) ^^^ BitVec.allOnes 64

/-! ### Reed-Solomon (R92) -/

/-- Multiplication by x in GF(2^8) with x^8 + x^4 + x^3 + x^2 + 1. -/
def gfDouble (a : Byte) : Byte := if a.getMsbD 0 then (a <<< 1) ^^^ 0x1D#8 else a <<< 1

/-- Product in GF(2^8). -/
def gfMul (a b : Byte) : Byte :=
  ((List.range 8).foldl (fun (s : Byte × Byte) i => (if b.getLsbD i then s.1 ^^^ s.2 else s.1, gfDouble s.2)) (0#8, a)).1

/-- α^n, with α = x. -/
def gfPow (n : Nat) : Byte := Nat.repeat gfDouble (n % 255) 1#8

/-- The inverse a^254. -/
def gfInv (a : Byte) : Byte := (List.range 253).foldl (fun r _ => gfMul r a) a

/-- The value at `x` of a polynomial, lowest coefficient first. -/
def gfEval (p : List Byte) (x : Byte) : Byte := p.foldr (fun c acc => gfMul acc x ^^^ c) 0#8

/-- The value at `x` of a codeword, first byte the highest power. -/
def gfHorner (w : Bytes) (x : Byte) : Byte := w.foldl (fun acc c => gfMul acc x ^^^ c) 0#8

/-- The eight syndromes: the codeword at α^0 to α^7. -/
def syndromes (w : Bytes) : List Byte := (List.range 8).map (fun i => gfHorner w (gfPow i))

/-- Sum of two polynomials, lowest coefficient first. -/
def gfAdd : List Byte → List Byte → List Byte
  | [], q => q
  | p, [] => p
  | a :: p, b :: q => (a ^^^ b) :: gfAdd p q

/-- The state of the Berlekamp-Massey search: locator, previous locator, its shift, its discrepancy, its length. -/
structure BM where
  lam : List Byte
  prev : List Byte
  shift : Nat
  dprev : Byte
  len : Nat
deriving DecidableEq, Repr

/-- One step of the search, for syndrome `n`. -/
def bmStep (s : List Byte) (b : BM) (n : Nat) : BM :=
  let d := (List.range (b.len + 1)).foldl (fun acc i =>
    acc ^^^ gfMul (b.lam.getD i 0#8) (if i ≤ n then s.getD (n - i) 0#8 else 0#8)) 0#8
  if d = 0#8 then { b with shift := b.shift + 1 }
  else
    let c := gfMul d (gfInv b.dprev)
    let lam := gfAdd b.lam (List.replicate b.shift 0#8 ++ b.prev.map (gfMul c))
    if 2 * b.len ≤ n then { lam := lam, prev := b.lam, shift := 1, dprev := d, len := n + 1 - b.len }
    else { b with lam := lam, shift := b.shift + 1 }

/-- Byte 0 of a codeword is the coefficient of x^127. -/
def rsDegree (i : Nat) : Nat := 127 - i

/-- Decodes a codeword of 128 bytes: the corrected codeword and the places corrected, or none (R92: up to 4 errors). -/
def rsDecode (w : Bytes) : Option (Bytes × List Nat) :=
  let s := syndromes w
  if s.all (fun x => x == 0#8) then some (w, [])
  else
    let b := (List.range 8).foldl (bmStep s) { lam := [1#8], prev := [1#8], shift := 1, dprev := 1#8, len := 0 }
    let places := (List.range 128).filter (fun i => gfEval b.lam (gfPow (255 - rsDegree i)) == 0#8)
    if 4 < b.len ∨ places.length ≠ b.len then none
    else
      let omega := (List.range 8).map (fun k =>
        (List.range (k + 1)).foldl (fun acc i => acc ^^^ gfMul (s.getD i 0#8) (b.lam.getD (k - i) 0#8)) 0#8)
      /- the formal derivative keeps the odd coefficients -/
      let deriv := (List.range b.len).map (fun k => if k % 2 = 0 then b.lam.getD (k + 1) 0#8 else 0#8)
      let fix := places.foldl (fun (w : Bytes) i =>
        let xi := gfPow (255 - rsDegree i)
        let e := gfMul (gfPow (rsDegree i)) (gfMul (gfEval omega xi) (gfInv (gfEval deriv xi)))
        w.set i (w.getD i 0#8 ^^^ e)) w
      if (syndromes fix).all (fun x => x == 0#8) then some (fix, places) else none

/-- Bytes of a flit at the places of codeword `k`: even or odd data bytes, then its parity (R92). -/
def rsPlaces (k : Nat) : List Nat :=
  (List.range 120).map (fun i => 2 * i + k) ++ (List.range 8).map (fun i => 240 + 8 * k + i)

/-- FEC over a flit of 256 bytes: the corrected flit and the byte positions corrected; none where a codeword does not
decode (R92). -/
def flitFec (f : Bytes) : Option (Bytes × List Nat) :=
  (List.range 2).foldl (fun acc k => acc.bind (fun a =>
    let ps := rsPlaces k
    (rsDecode (ps.map (fun p => f.getD p 0#8))).map (fun r =>
      ((ps.zip r.1).foldl (fun (g : Bytes) x => g.set x.1 x.2) a.1,
       a.2 ++ r.2.map (fun i => ps.getD i 0)))))
    (some (f, []))

/-- The generator of roots α^0 to α^7, highest power first but for its leading 1 (R92). -/
def rsGen : List Byte :=
  (((List.range 8).foldl (fun g i => gfAdd (0#8 :: g) (g.map (gfMul (gfPow i)))) [1#8]).take 8).reverse

/-- The eight parity bytes of 120 bytes: what completes them to a codeword (R92). -/
def rsParity (w : Bytes) : Bytes :=
  w.foldl (fun r b =>
    let fb := b ^^^ r.headD 0#8
    (r.drop 1 ++ [0#8]).zipWith (fun x g => x ^^^ gfMul fb g) rsGen) (List.replicate 8 0#8)

/-- The 256 bytes of a flit whose first 232 are given: its CRC and the parity of both codewords follow (R90-R92). -/
def sealFlit (body : Bytes) : Bytes :=
  let f := body ++ leBytes 8 (crc64 body).toNat
  f ++ (List.range 2).flatMap (fun k => rsParity (((rsPlaces k).take 120).map (fun p => f.getD p 0#8)))

/-- A flit (R90): SEQ, KIND, ACK, NAK, credit return (share, class, count), slots of 32 bytes. -/
def mkFlit (kind seq ack : Nat) (nak : Bool) (ret : Nat × Nat × Nat) (slots : List Bytes) : Bytes :=
  sealFlit (leBytes 2 (seq + 4096 * kind) ++ leBytes 2 (ack + 4096 * b2n nak) ++
    leBytes 4 (ret.1 + 32 * ret.2.1 + 256 * ret.2.2) ++ padTo 224 slots.flatten)

/-- The flit's CRC is right (R91). -/
def flitCrc (f : Bytes) : Bool := decide ((crc64 (f.take 232)).toNat = field f 232 8)

end Sys2Proof.Machine
end

