-- ==== Sys2Proof/Config.lean ====
section
/-!
DEFINITION. The free values: constants with no body, so that nothing can be proved of what the spec leaves open.
Each is named in the assumption log.
-/

namespace Sys2Proof.Config

/-- The n-th free number drawn, for a value the spec leaves open (log 6). -/
opaque free : Nat → Nat

/-- The k-th free number of the n-th draw, where one draw needs many (log 6). -/
opaque free2 : Nat → Nat → Nat

/-- Bytes of a poisoned line as delivered (16 R621): a function of the line and of what is stored there (log 7). -/
opaque poisonLine : Nat → Nat → Nat

/-- What data written under one key reads as under another (15 R606): written key, reading key, line, plain bytes (log 8). -/
opaque wrongKey : Nat → Nat → Nat → Nat → Nat

/-- Whether an error in three or more symbols of a line is detected, and what the line is corrected to when it is not
(16 R618): the draw (log 9). -/
opaque detects : Nat → Bool

/-- The directory set of PA bits [55:10] (04 R149) (log 10). -/
opaque dirSet : Nat → Nat

/-- The TLB set of an entry: Chamber, leaf level, CVA above the leaf (08 R306) (log 90). -/
opaque tlbSet : Nat → Nat → Nat → Nat

/-- Which Barrow carries an operation, of the 32 (07 R279): the operation's number (log 12). -/
opaque barrow : Nat → Nat

/-- The chain of a cartridge certificate reaches the cartridge root and names what it names (15 R600, R610): certificate,
serial, capacity, rated life (log 25). -/
opaque cartChain : Nat → Nat → Nat → Nat → Bool

/-- A signature of a cartridge key over a nonce and the two serial numbers (15 R610): certificate, nonce, device serial,
cartridge serial, signature (log 25). -/
opaque cartSigned : Nat → Nat → Nat → Nat → Nat → Bool

/-- The column of a row of a hot-row sketch for an index (12 R501): a hash fixed by the device (log 37). -/
opaque sketchHash : Nat → Nat → Nat

/-- Mesh attachment, of the eight, by which the frames of a logical port reach the network service (03 R107, R117, log 132). -/
opaque netStop (port : Nat) : Nat

/-- The logical port on which a queue pair sends (14 R550): the queue pair (log 40). -/
opaque qpPort : Nat → Nat

/-- The 64 KiB page of CVA space at which a Chamber's Portal area begins (14 R564, R566): the Chamber (log 41). -/
opaque portalPage : Nat → Nat

/-- Verification of an ML-DSA-87 signature with an empty context string (15 R580): public key, message, signature (log 54). -/
opaque mlDsa : Bytes → Bytes → Bytes → Bool

/-- The identity key's signature of a message, 4,627 bytes (15 R599, R609) (log 54). -/
opaque identitySign : Bytes → Bytes

/-- The public key of the identity key pair (15 R599) (log 54). -/
opaque identityKey : Bytes

/-- The Esdait firmware public key, whose digest the mask ROM holds (15 R600) (log 54). -/
opaque firmwareKey : Bytes

/-- Of an owner record, whose layout the spec does not give (15 R602): its VALID mask, the public key of a slot, the control
public key (log 55). -/
opaque ownerValid : Bytes → Nat
opaque ownerKey : Bytes → Nat → Bytes
opaque controlKey : Bytes → Bytes

/-- A new owner record satisfies the three conditions of 15 R602: the current record, the new one, this device's serial (log 55). -/
opaque ownerAccept : Bytes → Bytes → Nat → Bool

/-- Bytes of a valid repair map copy (15 R597), whose layout the spec does not give: FAIL marks, cartridge map, wear counts, boot
generation, SRAM repairs (log 55). -/
opaque repairCopy : List (Nat × Nat) → List (Nat × Nat) → List (Nat × Nat) → Nat → Bytes → Bytes

end Sys2Proof.Config
end

