-- ==== Sys2Proof/Machine/Field.lean ====
section
/-!
DEFINITION. The registers of control space (19 R716-R731) and their fields, as data.
`Reg` names every register, `Reg.info` gives its offset, width and instances (R730, R731).
`Fld` names every field, `Fld.info` gives its register, bits, type and Reset value (the register tables of each chapter).
Fields the spec marks reserved have no name here: they read 0 and ignore writes (00 R12).
-/

namespace Sys2Proof.Machine

/-- The register types of 00 R9. -/
inductive FTy where
  | ro | rw | rw1c | wo | rwl
deriving DecidableEq, Repr

/-- The registers of R730 and R731, each under its own name. -/
inductive Reg where
  | SEC_DEVID
  | SEC_BOOT
  | SEC_SERIAL
  | SEC_FLOOR
  | BND_CMD
  | BND_STS
  | BND_BUF
  | CLK_STS
  | CLK_ACLK_THR
  | PWR_POLICY
  | PWR_WAKE_CFG
  | PWR_CMD
  | PWR_STS
  | PWR_RST
  | PWR_DOM_STS
  | MRT_RSV_TMO
  | MRT_RECALL_TMO
  | MRT_REQ_TMO
  | MRT_CNT
  | DIR_CFG
  | DIR_CNT
  | ERR_LOG_STS
  | ERR_LOG_FREE
  | ERR_LOST
  | ERR_CNT
  | ERR_STS
  | ERR_BG_CFG
  | ERR_SCRUB_RANGE
  | ERR_SCRUB_CTL
  | ERR_TLM_CFG
  | ERR_TLM_PTR
  | ERR_SCRUB_REP
  | ERR_LOG_ENT
  | HUB_FP_CFG
  | HUB_FP_STS
  | HUB_FP_ERR
  | HUB_FP_LTHR
  | HUB_EGR_WT
  | HUB_LSHARE
  | HUB_DSHARE
  | HUB_EVICT_CNT
  | HUB_DROP_CNT
  | XLT_DEVNUM
  | XLT_T0_CFG
  | XLT_T1_CFG
  | XLT_CNT_CFG
  | XLT_EXT_SEL
  | XLT_EXT_ARG
  | XLT_EXT_CMD
  | XLT_EXT_STS
  | XLT_EXT_RESULT
  | XLT_EXT_ENT
  | XLT_HDM_MAP
  | MSN_BRICK_TMO
  | MSN_CO_CFG
  | MSN_STS
  | MSN_BUSY
  | MSN_BRICKS
  | MSN_SEM
  | TIE_POOL_CFG
  | TIE_WEAR_CFG
  | TIE_CART_TMO
  | TIE_CART_STS
  | TIE_CART_CMD
  | TIE_CART_CSTS
  | TIE_CART_WEAR
  | TIE_CART_LIFE
  | TIE_RCV_ENT
  | TBL_HOT_CFG
  | TBL_SKETCH
  | HRD_HOFF_TMO
  | TLY_CFG
  | TLY_EXPEL_MAX
  | TLY_WEIGHT
  | TLY_STS
  | TLY_CMD
  | TLY_PEERS
  | TLY_DEV
  | CMP_CMD
  | CMP_STS
  | CMP_GRACE
  | CMP_REVOKE_TMO
  | CMP_REVOKE
  | CMP_RESOLVE
  | CMP_CNT
  | CMP_BUTTRESS
  | CMP_ROUTE
  | CMP_ROUTE_STG
  | CMP_BKT_STG
  | NET_PTL_DEV
  | NET_CC
  | NET_PTP_CFG
  | NET_PTP_OFS
  | NET_CNT
  | NET_EP_CFG
  | NET_DSCP_MAP
  | NET_ADDR_CFG
  | NET_ADDR_IP
  | NET_EXP
  | NET_QP
  | CHM_CFG
  | CHM_OPS
  | CHM_CTL
  | CHM_STS
  | CHM_DRAIN_TMO
  | CHM_OP_TMO
  | CHM_CHK_CNT
  | XLT_CHM_ROOT
  | XLT_INV_CMD
  | XLT_INV_STS
  | XLT_FQ_BASE
  | XLT_FQ_CFG
  | XLT_FQ_SIG
  | XLT_FQ_PTR
  | XLT_FQ_SEQ
  | XLT_FQ_RESUME
  | XLT_FLT_CNT
  | XLT_FLT_STALL
  | XLT_HOT_BASE
  | XLT_HOT_PTR
  | XLT_HOT_DROP
  | TIE_CHM_QUOTA
  | TIE_CNT
  | FLW_TBL_VALID
  | FLW_CNT
  | HRD_CFG
  | HRD_IDX
  | HRD_POOL
  | HRD_PACK
  | HRD_CNT
  | HRD_COMPAT
  | HRD_BKT
  | TBL_TIME
  | TBL_HOT_BASE
  | TBL_HOT_PTR
  | TBL_HOT_DROP
  | TBL_CNT
  | TBL_DROP_CNT
  | GAL_CFG
  | GAL_CNT
  | GAL_TOMB_CNT
  | GAL_CACHE_CLR
  | NET_WCACHE
  | NET_PTL_CFG
  | NET_V1_TBL
  | NET_WIN
  | CHM_RING_BASE
  | CHM_RING_CBASE
  | CHM_RING_CFG
  | CHM_RING_DB
  | CHM_RING_CHD
  | CHM_RING_STS
  | CHM_RING_SIG
deriving DecidableEq, Repr

/-- The fields of the registers, each named `<register>_<field>`. -/
inductive Fld where
  | SEC_DEVID_PART
  | SEC_DEVID_STEPPING
  | SEC_DEVID_GRADE_E
  | SEC_BOOT_BOOT
  | SEC_SERIAL_SERIAL
  | SEC_FLOOR_BSV
  | SEC_FLOOR_FSV
  | SEC_FLOOR_LSV
  | SEC_FLOOR_SEQ
  | BND_CMD_ARG
  | BND_CMD_INDEX
  | BND_CMD_TARGET
  | BND_CMD_OP
  | BND_STS_ERR_OFFSET
  | BND_STS_BUSY
  | BND_STS_ACTIVE
  | BND_STS_FALLBACK
  | BND_STS_SELECTED
  | BND_STS_RUNNING
  | BND_STS_ERR
  | BND_BUF_WORD
  | CLK_STS_REF_LOST
  | CLK_STS_UNLOCK
  | CLK_STS_HOLDOVER
  | CLK_STS_ROOT_LOCK
  | CLK_ACLK_THR_CAPPED
  | CLK_ACLK_THR_EFFECTIVE
  | CLK_ACLK_THR_KEEP
  | PWR_POLICY_DIM_IDLE
  | PWR_POLICY_SHADE_IDLE
  | PWR_POLICY_DIM_GROUPS
  | PWR_WAKE_CFG_EDGE
  | PWR_WAKE_CFG_EN
  | PWR_CMD_OP
  | PWR_STS_STATE
  | PWR_STS_REFUSED
  | PWR_STS_LAST_RESET
  | PWR_STS_FAIL_DOM
  | PWR_RST_INDEX
  | PWR_RST_KIND
  | PWR_DOM_STS_WAKES
  | PWR_DOM_STS_STATE
  | MRT_RSV_TMO_TMO
  | MRT_RECALL_TMO_TMO
  | MRT_REQ_TMO_TMO
  | MRT_CNT_RECALL_TO
  | MRT_CNT_REQ_TO
  | MRT_CNT_LATE
  | MRT_CNT_TKT_EXP
  | MRT_CNT_RETRY
  | DIR_CFG_SPARE_EN
  | DIR_CFG_SPARE_FOR
  | DIR_CNT_EVICT
  | DIR_CNT_STALE
  | DIR_CNT_INVAL_TO
  | ERR_LOG_STS_NEXT_SEQ
  | ERR_LOG_STS_ULIVE
  | ERR_LOG_STS_LIVE
  | ERR_LOG_FREE_ALL
  | ERR_LOG_FREE_SLOT
  | ERR_LOST_COUNT
  | ERR_CNT_CE
  | ERR_CNT_UE
  | ERR_CNT_C_LOST
  | ERR_STS_UE_NEW
  | ERR_STS_LOST
  | ERR_STS_OVF
  | ERR_STS_SIDE_FULL
  | ERR_BG_CFG_DEFER
  | ERR_SCRUB_RANGE_PAGES
  | ERR_SCRUB_RANGE_BASE
  | ERR_SCRUB_CTL_BUSY
  | ERR_SCRUB_CTL_T2
  | ERR_SCRUB_CTL_START
  | ERR_TLM_CFG_EN
  | ERR_TLM_CFG_STREAM
  | ERR_TLM_CFG_PERIOD
  | ERR_TLM_PTR_TAIL
  | ERR_SCRUB_REP_RECORD
  | ERR_LOG_ENT_ENTRY
  | HUB_FP_CFG_CHAMBERS
  | HUB_FP_CFG_SPARE_EN
  | HUB_FP_CFG_PEER
  | HUB_FP_CFG_MODE
  | HUB_FP_STS_LINK_UP
  | HUB_FP_STS_RETRAINING
  | HUB_FP_STS_WIDTH
  | HUB_FP_STS_RATE
  | HUB_FP_STS_LANES_OUT
  | HUB_FP_STS_LANE_MAP
  | HUB_FP_ERR_DISCARD
  | HUB_FP_ERR_PROTO
  | HUB_FP_ERR_RETRAIN
  | HUB_FP_ERR_REPLAY
  | HUB_FP_ERR_CRC
  | HUB_FP_LTHR_LIMIT
  | HUB_EGR_WT_TC7
  | HUB_EGR_WT_TC6
  | HUB_EGR_WT_TC5
  | HUB_EGR_WT_TC4
  | HUB_EGR_WT_TC3
  | HUB_LSHARE_RSP
  | HUB_LSHARE_SIZE
  | HUB_DSHARE_OCC
  | HUB_DSHARE_SIZE
  | HUB_EVICT_CNT_FRAMES
  | HUB_DROP_CNT_FRAMES
  | XLT_DEVNUM_DEVNUM
  | XLT_T0_CFG_AFF
  | XLT_T0_CFG_SEED
  | XLT_T1_CFG_T1_OK
  | XLT_T1_CFG_T1_EXTENTS
  | XLT_CNT_CFG_DECAY
  | XLT_CNT_CFG_THRESH
  | XLT_CNT_CFG_SRC
  | XLT_EXT_SEL_COUNT
  | XLT_EXT_SEL_EXTENT
  | XLT_EXT_ARG_TARGET
  | XLT_EXT_ARG_PORT
  | XLT_EXT_CMD_CHAMBER
  | XLT_EXT_CMD_OP
  | XLT_EXT_STS_BUSY
  | XLT_EXT_STS_OVERRUN
  | XLT_EXT_STS_FAILED_AT
  | XLT_EXT_RESULT_CODE
  | XLT_EXT_ENT_TARGET
  | XLT_EXT_ENT_PORT
  | XLT_EXT_ENT_GEN
  | XLT_EXT_ENT_CHAMBER
  | XLT_EXT_ENT_AFFINE
  | XLT_EXT_ENT_KIND
  | XLT_EXT_ENT_STATE
  | XLT_HDM_MAP_VALID
  | XLT_HDM_MAP_DB
  | XLT_HDM_MAP_CHAMBER
  | XLT_HDM_MAP_SIZE
  | XLT_HDM_MAP_CVA_BASE
  | MSN_BRICK_TMO_TMO
  | MSN_CO_CFG_SPARE_EN
  | MSN_CO_CFG_SPARE_FOR
  | MSN_CO_CFG_SLOTS
  | MSN_STS_STATE
  | MSN_STS_CHAMBER
  | MSN_STS_SLOT
  | MSN_STS_SPARE
  | MSN_STS_BRICK
  | MSN_BUSY_OVF
  | MSN_BUSY_CYCLES
  | MSN_BRICKS_OVF
  | MSN_BRICKS_COUNT
  | MSN_SEM_VALUE
  | TIE_POOL_CFG_PIN_MAX
  | TIE_POOL_CFG_STAGE_EXT
  | TIE_POOL_CFG_PROMO_EXT
  | TIE_WEAR_CFG_LIMIT
  | TIE_WEAR_CFG_WARN
  | TIE_CART_TMO_TMO
  | TIE_CART_STS_STATE
  | TIE_CART_STS_WARN
  | TIE_CART_STS_LIMIT
  | TIE_CART_STS_POS
  | TIE_CART_CMD_TARGET
  | TIE_CART_CMD_SLOT
  | TIE_CART_CMD_OP
  | TIE_CART_CSTS_BUSY
  | TIE_CART_CSTS_RESULT
  | TIE_CART_CSTS_DONE_EXT
  | TIE_CART_WEAR_BYTES
  | TIE_CART_LIFE_BYTES
  | TIE_RCV_ENT_OUTCOME
  | TIE_RCV_ENT_CHAMBER
  | TIE_RCV_ENT_SRC
  | TIE_RCV_ENT_DST
  | TBL_HOT_CFG_DECAY
  | TBL_HOT_CFG_THRESH
  | TBL_HOT_CFG_SAMPLE_LOG2
  | TBL_SKETCH_EN
  | TBL_SKETCH_TABLE
  | TBL_SKETCH_CHAMBER
  | HRD_HOFF_TMO_TMO
  | TLY_CFG_THRESH
  | TLY_CFG_VOTES
  | TLY_CFG_DECAY
  | TLY_EXPEL_MAX_MAX
  | TLY_WEIGHT_MISS
  | TLY_WEIGHT_PATH
  | TLY_WEIGHT_TIMEOUT
  | TLY_WEIGHT_RETRAIN
  | TLY_WEIGHT_DOWN
  | TLY_WEIGHT_PROTO
  | TLY_WEIGHT_CRC
  | TLY_STS_SEQ
  | TLY_STS_DECIDER
  | TLY_STS_EXPELS
  | TLY_STS_CONFLICT
  | TLY_STS_SELF
  | TLY_CMD_DEVICE
  | TLY_CMD_OP
  | TLY_PEERS_MEMBERS
  | TLY_DEV_PENALTY
  | TLY_DEV_SCORE
  | TLY_DEV_STATE
  | CMP_CMD_EPOCH
  | CMP_CMD_OP
  | CMP_STS_EPOCH
  | CMP_STS_STAGED
  | CMP_STS_STAGED_V
  | CMP_STS_GRACE
  | CMP_STS_ERR
  | CMP_GRACE_TMO
  | CMP_REVOKE_TMO_TMO
  | CMP_REVOKE_BUSY
  | CMP_REVOKE_RESULT
  | CMP_REVOKE_COUNT
  | CMP_REVOKE_EXTENT
  | CMP_RESOLVE_WINNER
  | CMP_RESOLVE_CHAMBER
  | CMP_RESOLVE_SLOT
  | CMP_CNT_REROUTE
  | CMP_CNT_FORWARD
  | CMP_CNT_REVOKE_LATE
  | CMP_CNT_EXHAUSTED
  | CMP_BUTTRESS_EN
  | CMP_BUTTRESS_ROLE
  | CMP_BUTTRESS_STATE
  | CMP_BUTTRESS_CHAMBER
  | CMP_BUTTRESS_PEER
  | CMP_BUTTRESS_PEER_EXT
  | CMP_BUTTRESS_EXTENT
  | CMP_ROUTE_VALID
  | CMP_ROUTE_STANDIN
  | CMP_ROUTE_HOME
  | CMP_ROUTE_PORT
  | CMP_ROUTE_ALTPORT
  | CMP_ROUTE_ALT_EN
  | CMP_ROUTE_STG_VALID
  | CMP_ROUTE_STG_STANDIN
  | CMP_ROUTE_STG_HOME
  | CMP_ROUTE_STG_PORT
  | CMP_ROUTE_STG_ALTPORT
  | CMP_ROUTE_STG_ALT_EN
  | CMP_BKT_STG_PREV_V
  | CMP_BKT_STG_PREV
  | CMP_BKT_STG_DEV
  | NET_PTL_DEV_PORT
  | NET_PTL_DEV_DEDUP
  | NET_CC_CNP_GAP
  | NET_CC_INC_TIME
  | NET_CC_INC_STEP
  | NET_CC_DEC
  | NET_CC_MIN
  | NET_PTP_CFG_EN
  | NET_PTP_CFG_PORT
  | NET_PTP_CFG_TRANSPORT
  | NET_PTP_CFG_LOCKED
  | NET_PTP_CFG_DOMAIN
  | NET_PTP_CFG_MAXSLEW
  | NET_PTP_OFS_OFS
  | NET_CNT_NOADDR
  | NET_CNT_DROP
  | NET_CNT_PTL_BUSY
  | NET_CNT_PFC_OVF
  | NET_CNT_QP_ERR
  | NET_EP_CFG_MAXFRAME
  | NET_EP_CFG_PFC1
  | NET_EP_CFG_PFC0
  | NET_EP_CFG_MODE
  | NET_DSCP_MAP_PRIO
  | NET_DSCP_MAP_TC
  | NET_ADDR_CFG_EN
  | NET_ADDR_CFG_VLAN_EN
  | NET_ADDR_CFG_CHAMBER
  | NET_ADDR_CFG_VLAN
  | NET_ADDR_CFG_PKEY
  | NET_ADDR_IP_ADDR
  | NET_EXP_EN
  | NET_EXP_WR
  | NET_EXP_CHAMBER
  | NET_EXP_COUNT
  | NET_EXP_FIRST
  | NET_EXP_RKEY
  | NET_QP_RIP
  | NET_QP_DQPN
  | NET_QP_SPSN
  | NET_QP_RPSN
  | NET_QP_DSCP
  | NET_QP_PMTU
  | NET_QP_ADDR
  | NET_QP_TMO
  | NET_QP_STATE
  | CHM_CFG_DB_PAGE
  | CHM_CFG_CAP
  | CHM_CFG_WEIGHT
  | CHM_OPS_MAX
  | CHM_OPS_MIN
  | CHM_CTL_RESET
  | CHM_CTL_ENABLE
  | CHM_STS_STATE
  | CHM_STS_REFUSED
  | CHM_STS_LAST_ABORTS
  | CHM_DRAIN_TMO_TMO
  | CHM_OP_TMO_TMO
  | CHM_CHK_CNT_COUNT
  | XLT_CHM_ROOT_ROOT
  | XLT_INV_CMD_PAGE
  | XLT_INV_CMD_ALL
  | XLT_INV_CMD_PAGES
  | XLT_INV_STS_OVERRUN
  | XLT_INV_STS_TIMEOUT
  | XLT_INV_STS_ISSUED
  | XLT_INV_STS_REFUSED
  | XLT_INV_STS_DONE
  | XLT_FQ_BASE_OFFSET
  | XLT_FQ_CFG_AGE
  | XLT_FQ_CFG_COUNT
  | XLT_FQ_SIG_MODE
  | XLT_FQ_SIG_TARGET
  | XLT_FQ_PTR_TAIL
  | XLT_FQ_PTR_HEAD
  | XLT_FQ_SEQ_DELIVERED
  | XLT_FQ_SEQ_RESUMED
  | XLT_FQ_RESUME_BATCH
  | XLT_FLT_CNT_BADRES
  | XLT_FLT_CNT_JOINED
  | XLT_FLT_CNT_RECORDS
  | XLT_FLT_STALL_STALLS
  | XLT_HOT_BASE_EN
  | XLT_HOT_BASE_OFFSET
  | XLT_HOT_PTR_TAIL
  | XLT_HOT_PTR_HEAD
  | XLT_HOT_DROP_DROPS
  | TIE_CHM_QUOTA_SMAX
  | TIE_CHM_QUOTA_SMIN
  | TIE_CHM_QUOTA_PMAX
  | TIE_CHM_QUOTA_PMIN
  | TIE_CNT_SHORT
  | TIE_CNT_UNSTAGED
  | TIE_CNT_STAGE
  | TIE_CNT_PROMOTE
  | FLW_TBL_VALID_VALID
  | FLW_CNT_HDR
  | FLW_CNT_DATA
  | FLW_CNT_TABLE
  | FLW_CNT_POISON_IN
  | HRD_CFG_WAIT
  | HRD_CFG_PIN_MAX
  | HRD_CFG_MCOUNT
  | HRD_CFG_MFIRST
  | HRD_IDX_EN
  | HRD_IDX_SIZE_LOG2
  | HRD_IDX_OFFSET
  | HRD_POOL_COUNT
  | HRD_POOL_FIRST
  | HRD_PACK_EN
  | HRD_PACK_USED
  | HRD_PACK_EXTENT
  | HRD_CNT_EVICT
  | HRD_CNT_FALLBACK
  | HRD_CNT_HANDOFF
  | HRD_CNT_HOFF_ABORT
  | HRD_COMPAT_VALID
  | HRD_COMPAT_FAMILY
  | HRD_COMPAT_TO
  | HRD_COMPAT_FROM
  | HRD_BKT_PREV_V
  | HRD_BKT_PREV
  | HRD_BKT_DEV
  | TBL_TIME_MOVE_TMO
  | TBL_TIME_MOVE_GRACE
  | TBL_TIME_PUB_TMO
  | TBL_TIME_GRACE
  | TBL_HOT_BASE_EN
  | TBL_HOT_BASE_OFFSET
  | TBL_HOT_PTR_TAIL
  | TBL_HOT_PTR_HEAD
  | TBL_HOT_DROP_DROPS
  | TBL_CNT_VRETIRED
  | TBL_CNT_REROUTE
  | TBL_CNT_FORWARD
  | TBL_CNT_PUB_ABORT
  | TBL_DROP_CNT_INDICES
  | GAL_CFG_WAIT
  | GAL_CFG_MCOUNT
  | GAL_CFG_MFIRST
  | GAL_CNT_BADNODE
  | GAL_CNT_FULL
  | GAL_CNT_FALLBACK
  | GAL_CNT_STALE
  | GAL_TOMB_CNT_SLOTS
  | GAL_CACHE_CLR_CLR
  | NET_WCACHE_EN
  | NET_WCACHE_COUNT
  | NET_WCACHE_FIRST
  | NET_PTL_CFG_EN
  | NET_PTL_CFG_RING
  | NET_PTL_CFG_MAXOPS
  | NET_PTL_CFG_COUNT
  | NET_PTL_CFG_FIRST
  | NET_V1_TBL_EN
  | NET_V1_TBL_TABLE
  | NET_WIN_EN
  | NET_WIN_STATE
  | NET_WIN_QP
  | NET_WIN_RKEY
  | CHM_RING_BASE_BASE
  | CHM_RING_CBASE_BASE
  | CHM_RING_CFG_EN
  | CHM_RING_CFG_SIZE_LOG2
  | CHM_RING_DB_TAIL
  | CHM_RING_CHD_CHEAD
  | CHM_RING_STS_HEAD
  | CHM_RING_STS_INFLIGHT
  | CHM_RING_STS_DB_ERR
  | CHM_RING_STS_STATE
  | CHM_RING_SIG_MODE
  | CHM_RING_SIG_TARGET
  | CHM_RING_SIG_TIME
  | CHM_RING_SIG_COUNT
deriving DecidableEq, Repr

/-- Where a register lies: offset of its first instance, width in bits, and (count, stride) of each
dimension of its instances, outermost first. The Chamber registers have the Chamber as first dimension. -/
structure RegInfo where
  base : Nat
  width : Nat
  dims : List (Nat × Nat)
deriving DecidableEq, Repr

/-- A field: its register, bits [hi:lo], type and Reset value. -/
structure FldInfo where
  reg : Reg
  hi : Nat
  lo : Nat
  ty : FTy
  reset : Nat
deriving DecidableEq, Repr

/-- R730 and R731. -/
def Reg.info : Reg → RegInfo
  | .SEC_DEVID => ⟨0x0, 64, []⟩
  | .SEC_BOOT => ⟨0x8, 32, []⟩
  | .SEC_SERIAL => ⟨0x10, 128, []⟩
  | .SEC_FLOOR => ⟨0x20, 128, []⟩
  | .BND_CMD => ⟨0x10000, 64, []⟩
  | .BND_STS => ⟨0x10008, 64, []⟩
  | .BND_BUF => ⟨0x12000, 64, [(1024, 0x8)]⟩
  | .CLK_STS => ⟨0x20000, 32, []⟩
  | .CLK_ACLK_THR => ⟨0x20008, 32, []⟩
  | .PWR_POLICY => ⟨0x30000, 64, []⟩
  | .PWR_WAKE_CFG => ⟨0x30008, 32, []⟩
  | .PWR_CMD => ⟨0x30010, 32, []⟩
  | .PWR_STS => ⟨0x30018, 32, []⟩
  | .PWR_RST => ⟨0x30020, 32, []⟩
  | .PWR_DOM_STS => ⟨0x31000, 32, [(264, 0x8)]⟩
  | .MRT_RSV_TMO => ⟨0x40000, 32, []⟩
  | .MRT_RECALL_TMO => ⟨0x40008, 32, []⟩
  | .MRT_REQ_TMO => ⟨0x40010, 32, []⟩
  | .MRT_CNT => ⟨0x40018, 64, []⟩
  | .DIR_CFG => ⟨0x50000, 32, [(4, 0x10)]⟩
  | .DIR_CNT => ⟨0x50008, 64, [(4, 0x10)]⟩
  | .ERR_LOG_STS => ⟨0x80000, 64, []⟩
  | .ERR_LOG_FREE => ⟨0x80008, 32, []⟩
  | .ERR_LOST => ⟨0x80010, 32, []⟩
  | .ERR_CNT => ⟨0x80018, 64, []⟩
  | .ERR_STS => ⟨0x80020, 32, []⟩
  | .ERR_BG_CFG => ⟨0x80028, 32, []⟩
  | .ERR_SCRUB_RANGE => ⟨0x80030, 64, []⟩
  | .ERR_SCRUB_CTL => ⟨0x80038, 32, []⟩
  | .ERR_TLM_CFG => ⟨0x80040, 64, []⟩
  | .ERR_TLM_PTR => ⟨0x80048, 32, []⟩
  | .ERR_SCRUB_REP => ⟨0x80080, 512, []⟩
  | .ERR_LOG_ENT => ⟨0xC0000, 256, [(8192, 0x20)]⟩
  | .HUB_FP_CFG => ⟨0x100000, 32, [(16, 0x40)]⟩
  | .HUB_FP_STS => ⟨0x100008, 32, [(16, 0x40)]⟩
  | .HUB_FP_ERR => ⟨0x100010, 64, [(16, 0x40)]⟩
  | .HUB_FP_LTHR => ⟨0x100018, 32, [(16, 0x40)]⟩
  | .HUB_EGR_WT => ⟨0x100800, 64, []⟩
  | .HUB_LSHARE => ⟨0x101000, 32, [(17, 0x40), (6, 0x8)]⟩
  | .HUB_DSHARE => ⟨0x101800, 32, [(17, 0x8)]⟩
  | .HUB_EVICT_CNT => ⟨0x102000, 64, [(17, 0x40), (5, 0x8)]⟩
  | .HUB_DROP_CNT => ⟨0x103000, 64, [(17, 0x40), (5, 0x8)]⟩
  | .XLT_DEVNUM => ⟨0x110000, 32, []⟩
  | .XLT_T0_CFG => ⟨0x110008, 32, []⟩
  | .XLT_T1_CFG => ⟨0x110010, 32, []⟩
  | .XLT_CNT_CFG => ⟨0x110018, 64, []⟩
  | .XLT_EXT_SEL => ⟨0x110020, 32, []⟩
  | .XLT_EXT_ARG => ⟨0x110028, 64, []⟩
  | .XLT_EXT_CMD => ⟨0x110030, 32, []⟩
  | .XLT_EXT_STS => ⟨0x110038, 32, []⟩
  | .XLT_EXT_RESULT => ⟨0x110040, 32, []⟩
  | .XLT_EXT_ENT => ⟨0x110048, 64, []⟩
  | .XLT_HDM_MAP => ⟨0x111000, 64, [(16, 0x40), (8, 0x8)]⟩
  | .MSN_BRICK_TMO => ⟨0x120000, 32, []⟩
  | .MSN_CO_CFG => ⟨0x120100, 64, [(16, 0x8)]⟩
  | .MSN_STS => ⟨0x121000, 32, [(144, 0x20)]⟩
  | .MSN_BUSY => ⟨0x121008, 64, [(144, 0x20)]⟩
  | .MSN_BRICKS => ⟨0x121010, 64, [(144, 0x20)]⟩
  | .MSN_SEM => ⟨0x124000, 32, [(16, 0x200), (64, 0x8)]⟩
  | .TIE_POOL_CFG => ⟨0x130000, 32, []⟩
  | .TIE_WEAR_CFG => ⟨0x130008, 32, []⟩
  | .TIE_CART_TMO => ⟨0x130010, 32, []⟩
  | .TIE_CART_STS => ⟨0x130100, 32, [(9, 0x40)]⟩
  | .TIE_CART_CMD => ⟨0x130108, 32, [(9, 0x40)]⟩
  | .TIE_CART_CSTS => ⟨0x130110, 32, [(9, 0x40)]⟩
  | .TIE_CART_WEAR => ⟨0x130118, 64, [(9, 0x40)]⟩
  | .TIE_CART_LIFE => ⟨0x130120, 64, [(9, 0x40)]⟩
  | .TIE_RCV_ENT => ⟨0x131000, 64, [(64, 0x8)]⟩
  | .TBL_HOT_CFG => ⟨0x140000, 64, []⟩
  | .TBL_SKETCH => ⟨0x140100, 64, [(8, 0x8)]⟩
  | .HRD_HOFF_TMO => ⟨0x150000, 32, []⟩
  | .TLY_CFG => ⟨0x160000, 32, []⟩
  | .TLY_EXPEL_MAX => ⟨0x160008, 32, []⟩
  | .TLY_WEIGHT => ⟨0x160010, 64, []⟩
  | .TLY_STS => ⟨0x160018, 64, []⟩
  | .TLY_CMD => ⟨0x160020, 32, []⟩
  | .TLY_PEERS => ⟨0x160040, 256, []⟩
  | .TLY_DEV => ⟨0x161000, 32, [(256, 0x8)]⟩
  | .CMP_CMD => ⟨0x180000, 32, []⟩
  | .CMP_STS => ⟨0x180008, 32, []⟩
  | .CMP_GRACE => ⟨0x180010, 32, []⟩
  | .CMP_REVOKE_TMO => ⟨0x180018, 32, []⟩
  | .CMP_REVOKE => ⟨0x180020, 64, []⟩
  | .CMP_RESOLVE => ⟨0x180028, 64, []⟩
  | .CMP_CNT => ⟨0x180030, 64, []⟩
  | .CMP_BUTTRESS => ⟨0x180200, 64, [(64, 0x8)]⟩
  | .CMP_ROUTE => ⟨0x188000, 32, [(4096, 0x8)]⟩
  | .CMP_ROUTE_STG => ⟨0x190000, 32, [(4096, 0x8)]⟩
  | .CMP_BKT_STG => ⟨0x1A0000, 32, [(16, 0x800), (256, 0x8)]⟩
  | .NET_PTL_DEV => ⟨0x200000, 32, []⟩
  | .NET_CC => ⟨0x200008, 64, []⟩
  | .NET_PTP_CFG => ⟨0x200010, 32, []⟩
  | .NET_PTP_OFS => ⟨0x200018, 64, []⟩
  | .NET_CNT => ⟨0x200020, 64, []⟩
  | .NET_EP_CFG => ⟨0x200100, 32, [(4, 0x8)]⟩
  | .NET_DSCP_MAP => ⟨0x200200, 32, [(64, 0x8)]⟩
  | .NET_ADDR_CFG => ⟨0x201000, 64, [(64, 0x20)]⟩
  | .NET_ADDR_IP => ⟨0x201010, 128, [(64, 0x20)]⟩
  | .NET_EXP => ⟨0x202000, 128, [(256, 0x10)]⟩
  | .NET_QP => ⟨0x220000, 256, [(4096, 0x20)]⟩
  | .CHM_CFG => ⟨0x400000, 64, [(16, 0x40000)]⟩
  | .CHM_OPS => ⟨0x400008, 32, [(16, 0x40000)]⟩
  | .CHM_CTL => ⟨0x400010, 32, [(16, 0x40000)]⟩
  | .CHM_STS => ⟨0x400018, 32, [(16, 0x40000)]⟩
  | .CHM_DRAIN_TMO => ⟨0x400020, 32, [(16, 0x40000)]⟩
  | .CHM_OP_TMO => ⟨0x400028, 32, [(16, 0x40000)]⟩
  | .CHM_CHK_CNT => ⟨0x400030, 32, [(16, 0x40000)]⟩
  | .XLT_CHM_ROOT => ⟨0x400100, 64, [(16, 0x40000)]⟩
  | .XLT_INV_CMD => ⟨0x400108, 64, [(16, 0x40000)]⟩
  | .XLT_INV_STS => ⟨0x400110, 64, [(16, 0x40000)]⟩
  | .XLT_FQ_BASE => ⟨0x400118, 64, [(16, 0x40000)]⟩
  | .XLT_FQ_CFG => ⟨0x400120, 32, [(16, 0x40000)]⟩
  | .XLT_FQ_SIG => ⟨0x400128, 64, [(16, 0x40000)]⟩
  | .XLT_FQ_PTR => ⟨0x400130, 64, [(16, 0x40000)]⟩
  | .XLT_FQ_SEQ => ⟨0x400138, 64, [(16, 0x40000)]⟩
  | .XLT_FQ_RESUME => ⟨0x400140, 32, [(16, 0x40000)]⟩
  | .XLT_FLT_CNT => ⟨0x400148, 64, [(16, 0x40000)]⟩
  | .XLT_FLT_STALL => ⟨0x400150, 64, [(16, 0x40000)]⟩
  | .XLT_HOT_BASE => ⟨0x400158, 64, [(16, 0x40000)]⟩
  | .XLT_HOT_PTR => ⟨0x400160, 64, [(16, 0x40000)]⟩
  | .XLT_HOT_DROP => ⟨0x400168, 64, [(16, 0x40000)]⟩
  | .TIE_CHM_QUOTA => ⟨0x400200, 64, [(16, 0x40000)]⟩
  | .TIE_CNT => ⟨0x400208, 64, [(16, 0x40000)]⟩
  | .FLW_TBL_VALID => ⟨0x400300, 64, [(16, 0x40000)]⟩
  | .FLW_CNT => ⟨0x400308, 64, [(16, 0x40000)]⟩
  | .HRD_CFG => ⟨0x400400, 64, [(16, 0x40000)]⟩
  | .HRD_IDX => ⟨0x400408, 64, [(16, 0x40000)]⟩
  | .HRD_POOL => ⟨0x400410, 64, [(16, 0x40000)]⟩
  | .HRD_PACK => ⟨0x400418, 64, [(16, 0x40000)]⟩
  | .HRD_CNT => ⟨0x400420, 64, [(16, 0x40000)]⟩
  | .HRD_COMPAT => ⟨0x400480, 64, [(16, 0x40000), (16, 0x8)]⟩
  | .HRD_BKT => ⟨0x400800, 32, [(16, 0x40000), (256, 0x8)]⟩
  | .TBL_TIME => ⟨0x401000, 64, [(16, 0x40000)]⟩
  | .TBL_HOT_BASE => ⟨0x401008, 64, [(16, 0x40000)]⟩
  | .TBL_HOT_PTR => ⟨0x401010, 64, [(16, 0x40000)]⟩
  | .TBL_HOT_DROP => ⟨0x401018, 64, [(16, 0x40000)]⟩
  | .TBL_CNT => ⟨0x401020, 64, [(16, 0x40000)]⟩
  | .TBL_DROP_CNT => ⟨0x401028, 64, [(16, 0x40000)]⟩
  | .GAL_CFG => ⟨0x401100, 64, [(16, 0x40000)]⟩
  | .GAL_CNT => ⟨0x401108, 64, [(16, 0x40000)]⟩
  | .GAL_TOMB_CNT => ⟨0x401110, 64, [(16, 0x40000)]⟩
  | .GAL_CACHE_CLR => ⟨0x401118, 32, [(16, 0x40000)]⟩
  | .NET_WCACHE => ⟨0x401200, 64, [(16, 0x40000)]⟩
  | .NET_PTL_CFG => ⟨0x401208, 64, [(16, 0x40000)]⟩
  | .NET_V1_TBL => ⟨0x401280, 64, [(16, 0x40000), (16, 0x8)]⟩
  | .NET_WIN => ⟨0x401400, 64, [(16, 0x40000), (64, 0x8)]⟩
  | .CHM_RING_BASE => ⟨0x402000, 64, [(16, 0x40000), (64, 0x40)]⟩
  | .CHM_RING_CBASE => ⟨0x402008, 64, [(16, 0x40000), (64, 0x40)]⟩
  | .CHM_RING_CFG => ⟨0x402010, 32, [(16, 0x40000), (64, 0x40)]⟩
  | .CHM_RING_DB => ⟨0x402018, 32, [(16, 0x40000), (64, 0x40)]⟩
  | .CHM_RING_CHD => ⟨0x402020, 32, [(16, 0x40000), (64, 0x40)]⟩
  | .CHM_RING_STS => ⟨0x402028, 64, [(16, 0x40000), (64, 0x40)]⟩
  | .CHM_RING_SIG => ⟨0x402030, 64, [(16, 0x40000), (64, 0x40)]⟩

/-- The register tables of the chapters. -/
def Fld.info : Fld → FldInfo
  | .SEC_DEVID_PART => ⟨.SEC_DEVID, 31, 16, .ro, 0x7240⟩  -- R615
  | .SEC_DEVID_STEPPING => ⟨.SEC_DEVID, 15, 8, .ro, 0xB0⟩  -- R615
  | .SEC_DEVID_GRADE_E => ⟨.SEC_DEVID, 0, 0, .ro, 0x0⟩  -- R615
  | .SEC_BOOT_BOOT => ⟨.SEC_BOOT, 15, 0, .ro, 0x0⟩  -- R616
  | .SEC_SERIAL_SERIAL => ⟨.SEC_SERIAL, 127, 0, .ro, 0x0⟩  -- R616
  | .SEC_FLOOR_BSV => ⟨.SEC_FLOOR, 127, 96, .ro, 0x0⟩  -- R617
  | .SEC_FLOOR_FSV => ⟨.SEC_FLOOR, 95, 64, .ro, 0x0⟩  -- R617
  | .SEC_FLOOR_LSV => ⟨.SEC_FLOOR, 63, 32, .ro, 0x0⟩  -- R617
  | .SEC_FLOOR_SEQ => ⟨.SEC_FLOOR, 31, 0, .ro, 0x0⟩  -- R617
  | .BND_CMD_ARG => ⟨.BND_CMD, 63, 32, .wo, 0x0⟩  -- R612
  | .BND_CMD_INDEX => ⟨.BND_CMD, 15, 12, .wo, 0x0⟩  -- R612
  | .BND_CMD_TARGET => ⟨.BND_CMD, 11, 8, .wo, 0x0⟩  -- R612
  | .BND_CMD_OP => ⟨.BND_CMD, 7, 0, .wo, 0x0⟩  -- R612
  | .BND_STS_ERR_OFFSET => ⟨.BND_STS, 63, 32, .ro, 0x0⟩  -- R613
  | .BND_STS_BUSY => ⟨.BND_STS, 31, 31, .ro, 0x0⟩  -- R613
  | .BND_STS_ACTIVE => ⟨.BND_STS, 30, 30, .ro, 0x0⟩  -- R613
  | .BND_STS_FALLBACK => ⟨.BND_STS, 29, 29, .rw1c, 0x0⟩  -- R613
  | .BND_STS_SELECTED => ⟨.BND_STS, 28, 28, .ro, 0x0⟩  -- R613
  | .BND_STS_RUNNING => ⟨.BND_STS, 27, 27, .ro, 0x0⟩  -- R613
  | .BND_STS_ERR => ⟨.BND_STS, 7, 0, .ro, 0x0⟩  -- R613
  | .BND_BUF_WORD => ⟨.BND_BUF, 63, 0, .rw, 0x0⟩  -- R614
  | .CLK_STS_REF_LOST => ⟨.CLK_STS, 31, 31, .rw1c, 0x0⟩  -- R709
  | .CLK_STS_UNLOCK => ⟨.CLK_STS, 30, 30, .rw1c, 0x0⟩  -- R709
  | .CLK_STS_HOLDOVER => ⟨.CLK_STS, 29, 29, .ro, 0x0⟩  -- R709
  | .CLK_STS_ROOT_LOCK => ⟨.CLK_STS, 28, 28, .ro, 0x0⟩  -- R709
  | .CLK_ACLK_THR_CAPPED => ⟨.CLK_ACLK_THR, 13, 13, .ro, 0x0⟩  -- R710
  | .CLK_ACLK_THR_EFFECTIVE => ⟨.CLK_ACLK_THR, 12, 8, .ro, 0x13⟩  -- R710
  | .CLK_ACLK_THR_KEEP => ⟨.CLK_ACLK_THR, 4, 0, .rwl, 0x13⟩  -- R710
  | .PWR_POLICY_DIM_IDLE => ⟨.PWR_POLICY, 63, 48, .rwl, 0x64⟩  -- R711
  | .PWR_POLICY_SHADE_IDLE => ⟨.PWR_POLICY, 31, 16, .rwl, 0x40⟩  -- R711
  | .PWR_POLICY_DIM_GROUPS => ⟨.PWR_POLICY, 4, 0, .rwl, 0xF⟩  -- R711
  | .PWR_WAKE_CFG_EDGE => ⟨.PWR_WAKE_CFG, 1, 1, .rw, 0x0⟩  -- R712
  | .PWR_WAKE_CFG_EN => ⟨.PWR_WAKE_CFG, 0, 0, .rw, 0x1⟩  -- R712
  | .PWR_CMD_OP => ⟨.PWR_CMD, 7, 0, .wo, 0x0⟩  -- R713
  | .PWR_STS_STATE => ⟨.PWR_STS, 31, 29, .ro, 0x0⟩  -- R713
  | .PWR_STS_REFUSED => ⟨.PWR_STS, 28, 28, .rw1c, 0x0⟩  -- R713
  | .PWR_STS_LAST_RESET => ⟨.PWR_STS, 27, 24, .ro, 0x0⟩  -- R713
  | .PWR_STS_FAIL_DOM => ⟨.PWR_STS, 8, 0, .ro, 0x1FF⟩  -- R713
  | .PWR_RST_INDEX => ⟨.PWR_RST, 15, 8, .wo, 0x0⟩  -- R714
  | .PWR_RST_KIND => ⟨.PWR_RST, 3, 0, .wo, 0x0⟩  -- R714
  | .PWR_DOM_STS_WAKES => ⟨.PWR_DOM_STS, 31, 16, .rw1c, 0x0⟩  -- R715
  | .PWR_DOM_STS_STATE => ⟨.PWR_DOM_STS, 2, 0, .ro, 0x0⟩  -- R715
  | .MRT_RSV_TMO_TMO => ⟨.MRT_RSV_TMO, 19, 0, .rwl, 0x14⟩  -- R179
  | .MRT_RECALL_TMO_TMO => ⟨.MRT_RECALL_TMO, 19, 0, .rwl, 0x3E8⟩  -- R180
  | .MRT_REQ_TMO_TMO => ⟨.MRT_REQ_TMO, 19, 0, .rwl, 0xFA0⟩  -- R181
  | .MRT_CNT_RECALL_TO => ⟨.MRT_CNT, 63, 52, .rw1c, 0x0⟩  -- R182
  | .MRT_CNT_REQ_TO => ⟨.MRT_CNT, 51, 40, .rw1c, 0x0⟩  -- R182
  | .MRT_CNT_LATE => ⟨.MRT_CNT, 39, 28, .rw1c, 0x0⟩  -- R182
  | .MRT_CNT_TKT_EXP => ⟨.MRT_CNT, 27, 16, .rw1c, 0x0⟩  -- R182
  | .MRT_CNT_RETRY => ⟨.MRT_CNT, 15, 0, .rw1c, 0x0⟩  -- R182
  | .DIR_CFG_SPARE_EN => ⟨.DIR_CFG, 4, 4, .rwl, 0x0⟩  -- R183
  | .DIR_CFG_SPARE_FOR => ⟨.DIR_CFG, 3, 0, .rwl, 0x0⟩  -- R183
  | .DIR_CNT_EVICT => ⟨.DIR_CNT, 63, 32, .rw1c, 0x0⟩  -- R184
  | .DIR_CNT_STALE => ⟨.DIR_CNT, 31, 16, .rw1c, 0x0⟩  -- R184
  | .DIR_CNT_INVAL_TO => ⟨.DIR_CNT, 15, 0, .rw1c, 0x0⟩  -- R184
  | .ERR_LOG_STS_NEXT_SEQ => ⟨.ERR_LOG_STS, 63, 32, .ro, 0x0⟩  -- R645
  | .ERR_LOG_STS_ULIVE => ⟨.ERR_LOG_STS, 27, 14, .ro, 0x0⟩  -- R645
  | .ERR_LOG_STS_LIVE => ⟨.ERR_LOG_STS, 13, 0, .ro, 0x0⟩  -- R645
  | .ERR_LOG_FREE_ALL => ⟨.ERR_LOG_FREE, 31, 31, .wo, 0x0⟩  -- R645
  | .ERR_LOG_FREE_SLOT => ⟨.ERR_LOG_FREE, 12, 0, .wo, 0x0⟩  -- R645
  | .ERR_LOST_COUNT => ⟨.ERR_LOST, 31, 0, .rw1c, 0x0⟩  -- R646
  | .ERR_CNT_CE => ⟨.ERR_CNT, 63, 32, .rw1c, 0x0⟩  -- R646
  | .ERR_CNT_UE => ⟨.ERR_CNT, 31, 16, .rw1c, 0x0⟩  -- R646
  | .ERR_CNT_C_LOST => ⟨.ERR_CNT, 15, 0, .rw1c, 0x0⟩  -- R646
  | .ERR_STS_UE_NEW => ⟨.ERR_STS, 31, 31, .rw1c, 0x0⟩  -- R647
  | .ERR_STS_LOST => ⟨.ERR_STS, 30, 30, .rw1c, 0x0⟩  -- R647
  | .ERR_STS_OVF => ⟨.ERR_STS, 29, 29, .rw1c, 0x0⟩  -- R647
  | .ERR_STS_SIDE_FULL => ⟨.ERR_STS, 28, 28, .rw1c, 0x0⟩  -- R647
  | .ERR_BG_CFG_DEFER => ⟨.ERR_BG_CFG, 23, 0, .rwl, 0x64⟩  -- R648
  | .ERR_SCRUB_RANGE_PAGES => ⟨.ERR_SCRUB_RANGE, 63, 32, .rw, 0x1⟩  -- R649
  | .ERR_SCRUB_RANGE_BASE => ⟨.ERR_SCRUB_RANGE, 31, 0, .rw, 0x0⟩  -- R649
  | .ERR_SCRUB_CTL_BUSY => ⟨.ERR_SCRUB_CTL, 31, 31, .ro, 0x0⟩  -- R649
  | .ERR_SCRUB_CTL_T2 => ⟨.ERR_SCRUB_CTL, 1, 1, .rw, 0x0⟩  -- R649
  | .ERR_SCRUB_CTL_START => ⟨.ERR_SCRUB_CTL, 0, 0, .wo, 0x0⟩  -- R649
  | .ERR_TLM_CFG_EN => ⟨.ERR_TLM_CFG, 63, 63, .rwl, 0x0⟩  -- R650
  | .ERR_TLM_CFG_STREAM => ⟨.ERR_TLM_CFG, 62, 62, .rwl, 0x0⟩  -- R650
  | .ERR_TLM_CFG_PERIOD => ⟨.ERR_TLM_CFG, 31, 0, .rwl, 0x3E8⟩  -- R650
  | .ERR_TLM_PTR_TAIL => ⟨.ERR_TLM_PTR, 31, 0, .ro, 0x0⟩  -- R650
  | .ERR_SCRUB_REP_RECORD => ⟨.ERR_SCRUB_REP, 511, 0, .ro, 0x0⟩  -- R649
  | .ERR_LOG_ENT_ENTRY => ⟨.ERR_LOG_ENT, 255, 0, .ro, 0x0⟩  -- R644
  | .HUB_FP_CFG_CHAMBERS => ⟨.HUB_FP_CFG, 31, 16, .rwl, 0x0⟩  -- R123
  | .HUB_FP_CFG_SPARE_EN => ⟨.HUB_FP_CFG, 4, 4, .rwl, 0x0⟩  -- R123
  | .HUB_FP_CFG_PEER => ⟨.HUB_FP_CFG, 3, 3, .rwl, 0x0⟩  -- R123
  | .HUB_FP_CFG_MODE => ⟨.HUB_FP_CFG, 1, 0, .rwl, 0x0⟩  -- R123
  | .HUB_FP_STS_LINK_UP => ⟨.HUB_FP_STS, 31, 31, .ro, 0x0⟩  -- R124
  | .HUB_FP_STS_RETRAINING => ⟨.HUB_FP_STS, 30, 30, .ro, 0x0⟩  -- R124
  | .HUB_FP_STS_WIDTH => ⟨.HUB_FP_STS, 29, 28, .ro, 0x0⟩  -- R124
  | .HUB_FP_STS_RATE => ⟨.HUB_FP_STS, 27, 26, .ro, 0x0⟩  -- R124
  | .HUB_FP_STS_LANES_OUT => ⟨.HUB_FP_STS, 25, 16, .ro, 0x0⟩  -- R124
  | .HUB_FP_STS_LANE_MAP => ⟨.HUB_FP_STS, 15, 0, .ro, 0x0⟩  -- R124
  | .HUB_FP_ERR_DISCARD => ⟨.HUB_FP_ERR, 63, 48, .rw1c, 0x0⟩  -- R125
  | .HUB_FP_ERR_PROTO => ⟨.HUB_FP_ERR, 47, 40, .rw1c, 0x0⟩  -- R125
  | .HUB_FP_ERR_RETRAIN => ⟨.HUB_FP_ERR, 39, 32, .rw1c, 0x0⟩  -- R125
  | .HUB_FP_ERR_REPLAY => ⟨.HUB_FP_ERR, 31, 16, .rw1c, 0x0⟩  -- R125
  | .HUB_FP_ERR_CRC => ⟨.HUB_FP_ERR, 15, 0, .rw1c, 0x0⟩  -- R125
  | .HUB_FP_LTHR_LIMIT => ⟨.HUB_FP_LTHR, 15, 0, .rwl, 0x1000⟩  -- R126
  | .HUB_EGR_WT_TC7 => ⟨.HUB_EGR_WT, 39, 32, .rwl, 0x1⟩  -- R129
  | .HUB_EGR_WT_TC6 => ⟨.HUB_EGR_WT, 31, 24, .rwl, 0x2⟩  -- R129
  | .HUB_EGR_WT_TC5 => ⟨.HUB_EGR_WT, 23, 16, .rwl, 0x4⟩  -- R129
  | .HUB_EGR_WT_TC4 => ⟨.HUB_EGR_WT, 15, 8, .rwl, 0x4⟩  -- R129
  | .HUB_EGR_WT_TC3 => ⟨.HUB_EGR_WT, 7, 0, .rwl, 0x8⟩  -- R129
  | .HUB_LSHARE_RSP => ⟨.HUB_LSHARE, 27, 16, .rwl, 0x0⟩  -- R127
  | .HUB_LSHARE_SIZE => ⟨.HUB_LSHARE, 15, 0, .rwl, 0x0⟩  -- R127
  | .HUB_DSHARE_OCC => ⟨.HUB_DSHARE, 31, 16, .ro, 0x0⟩  -- R128
  | .HUB_DSHARE_SIZE => ⟨.HUB_DSHARE, 15, 0, .rwl, 0x0⟩  -- R128
  | .HUB_EVICT_CNT_FRAMES => ⟨.HUB_EVICT_CNT, 63, 0, .rw1c, 0x0⟩  -- R130
  | .HUB_DROP_CNT_FRAMES => ⟨.HUB_DROP_CNT, 63, 0, .rw1c, 0x0⟩  -- R130
  | .XLT_DEVNUM_DEVNUM => ⟨.XLT_DEVNUM, 7, 0, .rwl, 0x0⟩  -- R66
  | .XLT_T0_CFG_AFF => ⟨.XLT_T0_CFG, 26, 16, .rwl, 0x0⟩  -- R67
  | .XLT_T0_CFG_SEED => ⟨.XLT_T0_CFG, 7, 0, .rwl, 0x0⟩  -- R67
  | .XLT_T1_CFG_T1_OK => ⟨.XLT_T1_CFG, 31, 31, .ro, 0x0⟩  -- R68
  | .XLT_T1_CFG_T1_EXTENTS => ⟨.XLT_T1_CFG, 14, 0, .ro, 0x0⟩  -- R68
  | .XLT_CNT_CFG_DECAY => ⟨.XLT_CNT_CFG, 63, 32, .rwl, 0xF4240⟩  -- R340
  | .XLT_CNT_CFG_THRESH => ⟨.XLT_CNT_CFG, 31, 16, .rwl, 0x400⟩  -- R340
  | .XLT_CNT_CFG_SRC => ⟨.XLT_CNT_CFG, 2, 0, .rwl, 0x3⟩  -- R340
  | .XLT_EXT_SEL_COUNT => ⟨.XLT_EXT_SEL, 31, 20, .rw, 0x1⟩  -- R69
  | .XLT_EXT_SEL_EXTENT => ⟨.XLT_EXT_SEL, 19, 0, .rw, 0x0⟩  -- R69
  | .XLT_EXT_ARG_TARGET => ⟨.XLT_EXT_ARG, 63, 36, .rw, 0x0⟩  -- R70
  | .XLT_EXT_ARG_PORT => ⟨.XLT_EXT_ARG, 7, 0, .rw, 0x0⟩  -- R70
  | .XLT_EXT_CMD_CHAMBER => ⟨.XLT_EXT_CMD, 7, 4, .wo, 0x0⟩  -- R71
  | .XLT_EXT_CMD_OP => ⟨.XLT_EXT_CMD, 3, 0, .wo, 0x0⟩  -- R71
  | .XLT_EXT_STS_BUSY => ⟨.XLT_EXT_STS, 31, 31, .ro, 0x0⟩  -- R72
  | .XLT_EXT_STS_OVERRUN => ⟨.XLT_EXT_STS, 30, 30, .rw1c, 0x0⟩  -- R72
  | .XLT_EXT_STS_FAILED_AT => ⟨.XLT_EXT_STS, 19, 0, .ro, 0x0⟩  -- R72
  | .XLT_EXT_RESULT_CODE => ⟨.XLT_EXT_RESULT, 7, 0, .ro, 0x0⟩  -- R73
  | .XLT_EXT_ENT_TARGET => ⟨.XLT_EXT_ENT, 63, 36, .ro, 0x0⟩  -- R56
  | .XLT_EXT_ENT_PORT => ⟨.XLT_EXT_ENT, 31, 24, .ro, 0x0⟩  -- R56
  | .XLT_EXT_ENT_GEN => ⟨.XLT_EXT_ENT, 23, 16, .ro, 0x0⟩  -- R56
  | .XLT_EXT_ENT_CHAMBER => ⟨.XLT_EXT_ENT, 15, 12, .ro, 0x0⟩  -- R56
  | .XLT_EXT_ENT_AFFINE => ⟨.XLT_EXT_ENT, 11, 11, .ro, 0x0⟩  -- R56
  | .XLT_EXT_ENT_KIND => ⟨.XLT_EXT_ENT, 10, 8, .ro, 0x0⟩  -- R56
  | .XLT_EXT_ENT_STATE => ⟨.XLT_EXT_ENT, 3, 0, .ro, 0x0⟩  -- R56
  | .XLT_HDM_MAP_VALID => ⟨.XLT_HDM_MAP, 63, 63, .rwl, 0x0⟩  -- R75
  | .XLT_HDM_MAP_DB => ⟨.XLT_HDM_MAP, 56, 56, .rwl, 0x0⟩  -- R75
  | .XLT_HDM_MAP_CHAMBER => ⟨.XLT_HDM_MAP, 55, 52, .rwl, 0x0⟩  -- R75
  | .XLT_HDM_MAP_SIZE => ⟨.XLT_HDM_MAP, 51, 28, .rwl, 0x0⟩  -- R75
  | .XLT_HDM_MAP_CVA_BASE => ⟨.XLT_HDM_MAP, 23, 0, .rwl, 0x0⟩  -- R75
  | .MSN_BRICK_TMO_TMO => ⟨.MSN_BRICK_TMO, 19, 0, .rwl, 0x3E8⟩  -- R389
  | .MSN_CO_CFG_SPARE_EN => ⟨.MSN_CO_CFG, 47, 47, .rwl, 0x0⟩  -- R386
  | .MSN_CO_CFG_SPARE_FOR => ⟨.MSN_CO_CFG, 46, 44, .rwl, 0x0⟩  -- R386
  | .MSN_CO_CFG_SLOTS => ⟨.MSN_CO_CFG, 39, 0, .rwl, 0x0⟩  -- R386
  | .MSN_STS_STATE => ⟨.MSN_STS, 31, 29, .ro, 0x0⟩  -- R387
  | .MSN_STS_CHAMBER => ⟨.MSN_STS, 28, 25, .ro, 0x0⟩  -- R387
  | .MSN_STS_SLOT => ⟨.MSN_STS, 24, 22, .ro, 0x0⟩  -- R387
  | .MSN_STS_SPARE => ⟨.MSN_STS, 21, 21, .ro, 0x0⟩  -- R387
  | .MSN_STS_BRICK => ⟨.MSN_STS, 10, 0, .ro, 0x0⟩  -- R387
  | .MSN_BUSY_OVF => ⟨.MSN_BUSY, 63, 63, .rw1c, 0x0⟩  -- R390
  | .MSN_BUSY_CYCLES => ⟨.MSN_BUSY, 47, 0, .ro, 0x0⟩  -- R390
  | .MSN_BRICKS_OVF => ⟨.MSN_BRICKS, 63, 63, .rw1c, 0x0⟩  -- R390
  | .MSN_BRICKS_COUNT => ⟨.MSN_BRICKS, 47, 0, .ro, 0x0⟩  -- R390
  | .MSN_SEM_VALUE => ⟨.MSN_SEM, 31, 0, .rw, 0x0⟩  -- R388
  | .TIE_POOL_CFG_PIN_MAX => ⟨.TIE_POOL_CFG, 29, 23, .rwl, 0x32⟩  -- R293
  | .TIE_POOL_CFG_STAGE_EXT => ⟨.TIE_POOL_CFG, 22, 12, .rwl, 0x100⟩  -- R293
  | .TIE_POOL_CFG_PROMO_EXT => ⟨.TIE_POOL_CFG, 9, 0, .rwl, 0x40⟩  -- R293
  | .TIE_WEAR_CFG_LIMIT => ⟨.TIE_WEAR_CFG, 14, 8, .rwl, 0x64⟩  -- R298
  | .TIE_WEAR_CFG_WARN => ⟨.TIE_WEAR_CFG, 6, 0, .rwl, 0x50⟩  -- R298
  | .TIE_CART_TMO_TMO => ⟨.TIE_CART_TMO, 10, 0, .rwl, 0x64⟩  -- R298
  | .TIE_CART_STS_STATE => ⟨.TIE_CART_STS, 31, 29, .ro, 0x0⟩  -- R296
  | .TIE_CART_STS_WARN => ⟨.TIE_CART_STS, 28, 28, .ro, 0x0⟩  -- R296
  | .TIE_CART_STS_LIMIT => ⟨.TIE_CART_STS, 27, 27, .ro, 0x0⟩  -- R296
  | .TIE_CART_STS_POS => ⟨.TIE_CART_STS, 3, 0, .ro, 0xF⟩  -- R296
  | .TIE_CART_CMD_TARGET => ⟨.TIE_CART_CMD, 11, 8, .wo, 0x0⟩  -- R299
  | .TIE_CART_CMD_SLOT => ⟨.TIE_CART_CMD, 7, 4, .wo, 0x0⟩  -- R299
  | .TIE_CART_CMD_OP => ⟨.TIE_CART_CMD, 3, 0, .wo, 0x0⟩  -- R299
  | .TIE_CART_CSTS_BUSY => ⟨.TIE_CART_CSTS, 31, 31, .ro, 0x0⟩  -- R299
  | .TIE_CART_CSTS_RESULT => ⟨.TIE_CART_CSTS, 30, 28, .ro, 0x0⟩  -- R299
  | .TIE_CART_CSTS_DONE_EXT => ⟨.TIE_CART_CSTS, 19, 0, .ro, 0x0⟩  -- R299
  | .TIE_CART_WEAR_BYTES => ⟨.TIE_CART_WEAR, 63, 0, .ro, 0x0⟩  -- R297
  | .TIE_CART_LIFE_BYTES => ⟨.TIE_CART_LIFE, 63, 0, .ro, 0x0⟩  -- R297
  | .TIE_RCV_ENT_OUTCOME => ⟨.TIE_RCV_ENT, 63, 62, .ro, 0x0⟩  -- R300
  | .TIE_RCV_ENT_CHAMBER => ⟨.TIE_RCV_ENT, 59, 56, .ro, 0x0⟩  -- R300
  | .TIE_RCV_ENT_SRC => ⟨.TIE_RCV_ENT, 51, 32, .ro, 0x0⟩  -- R300
  | .TIE_RCV_ENT_DST => ⟨.TIE_RCV_ENT, 19, 0, .ro, 0x0⟩  -- R300
  | .TBL_HOT_CFG_DECAY => ⟨.TBL_HOT_CFG, 63, 32, .rwl, 0x3E8⟩  -- R511
  | .TBL_HOT_CFG_THRESH => ⟨.TBL_HOT_CFG, 31, 16, .rwl, 0x100⟩  -- R511
  | .TBL_HOT_CFG_SAMPLE_LOG2 => ⟨.TBL_HOT_CFG, 3, 0, .rwl, 0x4⟩  -- R511
  | .TBL_SKETCH_EN => ⟨.TBL_SKETCH, 63, 63, .rw, 0x0⟩  -- R512
  | .TBL_SKETCH_TABLE => ⟨.TBL_SKETCH, 55, 28, .rw, 0x0⟩  -- R512
  | .TBL_SKETCH_CHAMBER => ⟨.TBL_SKETCH, 3, 0, .rw, 0x0⟩  -- R512
  | .HRD_HOFF_TMO_TMO => ⟨.HRD_HOFF_TMO, 15, 0, .rwl, 0x32⟩  -- R465
  | .TLY_CFG_THRESH => ⟨.TLY_CFG, 23, 16, .rwl, 0x40⟩  -- R680
  | .TLY_CFG_VOTES => ⟨.TLY_CFG, 15, 12, .rwl, 0x3⟩  -- R680
  | .TLY_CFG_DECAY => ⟨.TLY_CFG, 11, 8, .rwl, 0x6⟩  -- R680
  | .TLY_EXPEL_MAX_MAX => ⟨.TLY_EXPEL_MAX, 7, 0, .rwl, 0x2⟩  -- R680
  | .TLY_WEIGHT_MISS => ⟨.TLY_WEIGHT, 63, 56, .rwl, 0x20⟩  -- R681
  | .TLY_WEIGHT_PATH => ⟨.TLY_WEIGHT, 55, 48, .rwl, 0x2⟩  -- R681
  | .TLY_WEIGHT_TIMEOUT => ⟨.TLY_WEIGHT, 47, 40, .rwl, 0x20⟩  -- R681
  | .TLY_WEIGHT_RETRAIN => ⟨.TLY_WEIGHT, 39, 32, .rwl, 0x8⟩  -- R681
  | .TLY_WEIGHT_DOWN => ⟨.TLY_WEIGHT, 31, 24, .rwl, 0x40⟩  -- R681
  | .TLY_WEIGHT_PROTO => ⟨.TLY_WEIGHT, 23, 16, .rwl, 0x10⟩  -- R681
  | .TLY_WEIGHT_CRC => ⟨.TLY_WEIGHT, 15, 8, .rwl, 0x4⟩  -- R681
  | .TLY_STS_SEQ => ⟨.TLY_STS, 63, 32, .ro, 0x0⟩  -- R682
  | .TLY_STS_DECIDER => ⟨.TLY_STS, 31, 24, .ro, 0x0⟩  -- R682
  | .TLY_STS_EXPELS => ⟨.TLY_STS, 23, 16, .ro, 0x0⟩  -- R682
  | .TLY_STS_CONFLICT => ⟨.TLY_STS, 2, 2, .rw1c, 0x0⟩  -- R682
  | .TLY_STS_SELF => ⟨.TLY_STS, 1, 0, .ro, 0x0⟩  -- R682
  | .TLY_CMD_DEVICE => ⟨.TLY_CMD, 15, 8, .wo, 0x0⟩  -- R682
  | .TLY_CMD_OP => ⟨.TLY_CMD, 3, 0, .wo, 0x0⟩  -- R682
  | .TLY_PEERS_MEMBERS => ⟨.TLY_PEERS, 255, 0, .rwl, 0x0⟩  -- R680
  | .TLY_DEV_PENALTY => ⟨.TLY_DEV, 31, 16, .ro, 0x0⟩  -- R682
  | .TLY_DEV_SCORE => ⟨.TLY_DEV, 15, 8, .ro, 0xFF⟩  -- R682
  | .TLY_DEV_STATE => ⟨.TLY_DEV, 7, 6, .ro, 0x0⟩  -- R682
  | .CMP_CMD_EPOCH => ⟨.CMP_CMD, 15, 8, .wo, 0x0⟩  -- R684
  | .CMP_CMD_OP => ⟨.CMP_CMD, 3, 0, .wo, 0x0⟩  -- R684
  | .CMP_STS_EPOCH => ⟨.CMP_STS, 31, 24, .ro, 0x0⟩  -- R684
  | .CMP_STS_STAGED => ⟨.CMP_STS, 23, 16, .ro, 0x0⟩  -- R684
  | .CMP_STS_STAGED_V => ⟨.CMP_STS, 15, 15, .ro, 0x0⟩  -- R684
  | .CMP_STS_GRACE => ⟨.CMP_STS, 14, 14, .ro, 0x0⟩  -- R684
  | .CMP_STS_ERR => ⟨.CMP_STS, 7, 0, .ro, 0x0⟩  -- R684
  | .CMP_GRACE_TMO => ⟨.CMP_GRACE, 15, 0, .rw, 0x7D0⟩  -- R685
  | .CMP_REVOKE_TMO_TMO => ⟨.CMP_REVOKE_TMO, 19, 0, .rw, 0x1F4⟩  -- R685
  | .CMP_REVOKE_BUSY => ⟨.CMP_REVOKE, 63, 63, .ro, 0x0⟩  -- R686
  | .CMP_REVOKE_RESULT => ⟨.CMP_REVOKE, 62, 60, .ro, 0x0⟩  -- R686
  | .CMP_REVOKE_COUNT => ⟨.CMP_REVOKE, 31, 20, .wo, 0x0⟩  -- R686
  | .CMP_REVOKE_EXTENT => ⟨.CMP_REVOKE, 19, 0, .wo, 0x0⟩  -- R686
  | .CMP_RESOLVE_WINNER => ⟨.CMP_RESOLVE, 63, 56, .wo, 0x0⟩  -- R688
  | .CMP_RESOLVE_CHAMBER => ⟨.CMP_RESOLVE, 55, 52, .wo, 0x0⟩  -- R688
  | .CMP_RESOLVE_SLOT => ⟨.CMP_RESOLVE, 19, 0, .wo, 0x0⟩  -- R688
  | .CMP_CNT_REROUTE => ⟨.CMP_CNT, 63, 48, .rw1c, 0x0⟩  -- R689
  | .CMP_CNT_FORWARD => ⟨.CMP_CNT, 47, 32, .rw1c, 0x0⟩  -- R689
  | .CMP_CNT_REVOKE_LATE => ⟨.CMP_CNT, 31, 16, .rw1c, 0x0⟩  -- R689
  | .CMP_CNT_EXHAUSTED => ⟨.CMP_CNT, 15, 0, .rw1c, 0x0⟩  -- R689
  | .CMP_BUTTRESS_EN => ⟨.CMP_BUTTRESS, 63, 63, .rw, 0x0⟩  -- R687
  | .CMP_BUTTRESS_ROLE => ⟨.CMP_BUTTRESS, 62, 62, .rw, 0x0⟩  -- R687
  | .CMP_BUTTRESS_STATE => ⟨.CMP_BUTTRESS, 61, 59, .ro, 0x0⟩  -- R687
  | .CMP_BUTTRESS_CHAMBER => ⟨.CMP_BUTTRESS, 55, 52, .rw, 0x0⟩  -- R687
  | .CMP_BUTTRESS_PEER => ⟨.CMP_BUTTRESS, 51, 44, .rw, 0x0⟩  -- R687
  | .CMP_BUTTRESS_PEER_EXT => ⟨.CMP_BUTTRESS, 39, 20, .rw, 0x0⟩  -- R687
  | .CMP_BUTTRESS_EXTENT => ⟨.CMP_BUTTRESS, 19, 0, .rw, 0x0⟩  -- R687
  | .CMP_ROUTE_VALID => ⟨.CMP_ROUTE, 31, 31, .ro, 0x0⟩  -- R683
  | .CMP_ROUTE_STANDIN => ⟨.CMP_ROUTE, 30, 30, .ro, 0x0⟩  -- R683
  | .CMP_ROUTE_HOME => ⟨.CMP_ROUTE, 27, 20, .ro, 0x0⟩  -- R683
  | .CMP_ROUTE_PORT => ⟨.CMP_ROUTE, 19, 16, .ro, 0x0⟩  -- R683
  | .CMP_ROUTE_ALTPORT => ⟨.CMP_ROUTE, 15, 12, .ro, 0x0⟩  -- R683
  | .CMP_ROUTE_ALT_EN => ⟨.CMP_ROUTE, 11, 11, .ro, 0x0⟩  -- R683
  | .CMP_ROUTE_STG_VALID => ⟨.CMP_ROUTE_STG, 31, 31, .rw, 0x0⟩  -- R683
  | .CMP_ROUTE_STG_STANDIN => ⟨.CMP_ROUTE_STG, 30, 30, .rw, 0x0⟩  -- R683
  | .CMP_ROUTE_STG_HOME => ⟨.CMP_ROUTE_STG, 27, 20, .rw, 0x0⟩  -- R683
  | .CMP_ROUTE_STG_PORT => ⟨.CMP_ROUTE_STG, 19, 16, .rw, 0x0⟩  -- R683
  | .CMP_ROUTE_STG_ALTPORT => ⟨.CMP_ROUTE_STG, 15, 12, .rw, 0x0⟩  -- R683
  | .CMP_ROUTE_STG_ALT_EN => ⟨.CMP_ROUTE_STG, 11, 11, .rw, 0x0⟩  -- R683
  | .CMP_BKT_STG_PREV_V => ⟨.CMP_BKT_STG, 16, 16, .rw, 0x0⟩  -- R683
  | .CMP_BKT_STG_PREV => ⟨.CMP_BKT_STG, 15, 8, .rw, 0x0⟩  -- R683
  | .CMP_BKT_STG_DEV => ⟨.CMP_BKT_STG, 7, 0, .rw, 0x0⟩  -- R683
  | .NET_PTL_DEV_PORT => ⟨.NET_PTL_DEV, 31, 16, .rwl, 0x1C48⟩  -- R574
  | .NET_PTL_DEV_DEDUP => ⟨.NET_PTL_DEV, 15, 0, .rwl, 0x64⟩  -- R574
  | .NET_CC_CNP_GAP => ⟨.NET_CC, 63, 48, .rwl, 0x32⟩  -- R575
  | .NET_CC_INC_TIME => ⟨.NET_CC, 47, 32, .rwl, 0x37⟩  -- R575
  | .NET_CC_INC_STEP => ⟨.NET_CC, 31, 20, .rwl, 0x32⟩  -- R575
  | .NET_CC_DEC => ⟨.NET_CC, 19, 16, .rwl, 0x1⟩  -- R575
  | .NET_CC_MIN => ⟨.NET_CC, 15, 0, .rwl, 0xA⟩  -- R575
  | .NET_PTP_CFG_EN => ⟨.NET_PTP_CFG, 31, 31, .rwl, 0x0⟩  -- R576
  | .NET_PTP_CFG_PORT => ⟨.NET_PTP_CFG, 30, 27, .rwl, 0x0⟩  -- R576
  | .NET_PTP_CFG_TRANSPORT => ⟨.NET_PTP_CFG, 26, 25, .rwl, 0x0⟩  -- R576
  | .NET_PTP_CFG_LOCKED => ⟨.NET_PTP_CFG, 24, 24, .ro, 0x0⟩  -- R576
  | .NET_PTP_CFG_DOMAIN => ⟨.NET_PTP_CFG, 22, 15, .rwl, 0x0⟩  -- R576
  | .NET_PTP_CFG_MAXSLEW => ⟨.NET_PTP_CFG, 9, 0, .rwl, 0xC8⟩  -- R576
  | .NET_PTP_OFS_OFS => ⟨.NET_PTP_OFS, 63, 0, .ro, 0x0⟩  -- R576
  | .NET_CNT_NOADDR => ⟨.NET_CNT, 63, 48, .rw1c, 0x0⟩  -- R577
  | .NET_CNT_DROP => ⟨.NET_CNT, 47, 32, .rw1c, 0x0⟩  -- R577
  | .NET_CNT_PTL_BUSY => ⟨.NET_CNT, 31, 16, .rw1c, 0x0⟩  -- R577
  | .NET_CNT_PFC_OVF => ⟨.NET_CNT, 15, 8, .rw1c, 0x0⟩  -- R577
  | .NET_CNT_QP_ERR => ⟨.NET_CNT, 7, 0, .rw1c, 0x0⟩  -- R577
  | .NET_EP_CFG_MAXFRAME => ⟨.NET_EP_CFG, 31, 18, .rwl, 0x2400⟩  -- R570
  | .NET_EP_CFG_PFC1 => ⟨.NET_EP_CFG, 17, 10, .rwl, 0x0⟩  -- R570
  | .NET_EP_CFG_PFC0 => ⟨.NET_EP_CFG, 9, 2, .rwl, 0x0⟩  -- R570
  | .NET_EP_CFG_MODE => ⟨.NET_EP_CFG, 1, 0, .rwl, 0x0⟩  -- R570
  | .NET_DSCP_MAP_PRIO => ⟨.NET_DSCP_MAP, 6, 4, .rwl, 0x0⟩  -- R570
  | .NET_DSCP_MAP_TC => ⟨.NET_DSCP_MAP, 2, 0, .rwl, 0x6⟩  -- R570
  | .NET_ADDR_CFG_EN => ⟨.NET_ADDR_CFG, 63, 63, .rwl, 0x0⟩  -- R571
  | .NET_ADDR_CFG_VLAN_EN => ⟨.NET_ADDR_CFG, 62, 62, .rwl, 0x0⟩  -- R571
  | .NET_ADDR_CFG_CHAMBER => ⟨.NET_ADDR_CFG, 61, 58, .rwl, 0x0⟩  -- R571
  | .NET_ADDR_CFG_VLAN => ⟨.NET_ADDR_CFG, 57, 46, .rwl, 0x0⟩  -- R571
  | .NET_ADDR_CFG_PKEY => ⟨.NET_ADDR_CFG, 31, 0, .rwl, 0x0⟩  -- R571
  | .NET_ADDR_IP_ADDR => ⟨.NET_ADDR_IP, 127, 0, .rwl, 0x0⟩  -- R571
  | .NET_EXP_EN => ⟨.NET_EXP, 127, 127, .rw, 0x0⟩  -- R573
  | .NET_EXP_WR => ⟨.NET_EXP, 126, 126, .rw, 0x0⟩  -- R573
  | .NET_EXP_CHAMBER => ⟨.NET_EXP, 87, 84, .rw, 0x0⟩  -- R573
  | .NET_EXP_COUNT => ⟨.NET_EXP, 83, 64, .rw, 0x0⟩  -- R573
  | .NET_EXP_FIRST => ⟨.NET_EXP, 51, 32, .rw, 0x0⟩  -- R573
  | .NET_EXP_RKEY => ⟨.NET_EXP, 31, 0, .rw, 0x0⟩  -- R573
  | .NET_QP_RIP => ⟨.NET_QP, 255, 128, .rw, 0x0⟩  -- R572
  | .NET_QP_DQPN => ⟨.NET_QP, 127, 104, .rw, 0x0⟩  -- R572
  | .NET_QP_SPSN => ⟨.NET_QP, 103, 80, .rw, 0x0⟩  -- R572
  | .NET_QP_RPSN => ⟨.NET_QP, 79, 56, .rw, 0x0⟩  -- R572
  | .NET_QP_DSCP => ⟨.NET_QP, 55, 50, .rw, 0x0⟩  -- R572
  | .NET_QP_PMTU => ⟨.NET_QP, 49, 48, .rw, 0x2⟩  -- R572
  | .NET_QP_ADDR => ⟨.NET_QP, 47, 42, .rw, 0x0⟩  -- R572
  | .NET_QP_TMO => ⟨.NET_QP, 39, 20, .rw, 0x3E8⟩  -- R572
  | .NET_QP_STATE => ⟨.NET_QP, 19, 18, .rw, 0x0⟩  -- R572
  | .CHM_CFG_DB_PAGE => ⟨.CHM_CFG, 59, 24, .rwl, 0x0⟩  -- R249
  | .CHM_CFG_CAP => ⟨.CHM_CFG, 22, 16, .rwl, 0x0⟩  -- R249
  | .CHM_CFG_WEIGHT => ⟨.CHM_CFG, 15, 8, .rwl, 0x10⟩  -- R249
  | .CHM_OPS_MAX => ⟨.CHM_OPS, 31, 16, .rwl, 0x1000⟩  -- R250
  | .CHM_OPS_MIN => ⟨.CHM_OPS, 15, 0, .rwl, 0x0⟩  -- R250
  | .CHM_CTL_RESET => ⟨.CHM_CTL, 1, 1, .wo, 0x0⟩  -- R251
  | .CHM_CTL_ENABLE => ⟨.CHM_CTL, 0, 0, .rw, 0x0⟩  -- R251
  | .CHM_STS_STATE => ⟨.CHM_STS, 31, 29, .ro, 0x0⟩  -- R252
  | .CHM_STS_REFUSED => ⟨.CHM_STS, 28, 28, .rw1c, 0x0⟩  -- R252
  | .CHM_STS_LAST_ABORTS => ⟨.CHM_STS, 15, 0, .ro, 0x0⟩  -- R252
  | .CHM_DRAIN_TMO_TMO => ⟨.CHM_DRAIN_TMO, 15, 0, .rwl, 0xA⟩  -- R253
  | .CHM_OP_TMO_TMO => ⟨.CHM_OP_TMO, 15, 0, .rw, 0x0⟩  -- R254
  | .CHM_CHK_CNT_COUNT => ⟨.CHM_CHK_CNT, 31, 0, .rw1c, 0x0⟩  -- R255
  | .XLT_CHM_ROOT_ROOT => ⟨.XLT_CHM_ROOT, 55, 15, .rw, 0x0⟩  -- R334
  | .XLT_INV_CMD_PAGE => ⟨.XLT_INV_CMD, 63, 28, .wo, 0x0⟩  -- R335
  | .XLT_INV_CMD_ALL => ⟨.XLT_INV_CMD, 27, 27, .wo, 0x0⟩  -- R335
  | .XLT_INV_CMD_PAGES => ⟨.XLT_INV_CMD, 23, 0, .wo, 0x0⟩  -- R335
  | .XLT_INV_STS_OVERRUN => ⟨.XLT_INV_STS, 63, 63, .rw1c, 0x0⟩  -- R335
  | .XLT_INV_STS_TIMEOUT => ⟨.XLT_INV_STS, 62, 62, .rw1c, 0x0⟩  -- R335
  | .XLT_INV_STS_ISSUED => ⟨.XLT_INV_STS, 61, 32, .ro, 0x0⟩  -- R335
  | .XLT_INV_STS_REFUSED => ⟨.XLT_INV_STS, 31, 31, .rw1c, 0x0⟩  -- R335
  | .XLT_INV_STS_DONE => ⟨.XLT_INV_STS, 29, 0, .ro, 0x0⟩  -- R335
  | .XLT_FQ_BASE_OFFSET => ⟨.XLT_FQ_BASE, 47, 17, .rwl, 0x0⟩  -- R336
  | .XLT_FQ_CFG_AGE => ⟨.XLT_FQ_CFG, 31, 16, .rw, 0x14⟩  -- R337
  | .XLT_FQ_CFG_COUNT => ⟨.XLT_FQ_CFG, 9, 0, .rw, 0x40⟩  -- R337
  | .XLT_FQ_SIG_MODE => ⟨.XLT_FQ_SIG, 63, 62, .rw, 0x0⟩  -- R337
  | .XLT_FQ_SIG_TARGET => ⟨.XLT_FQ_SIG, 47, 32, .rw, 0x0⟩  -- R337
  | .XLT_FQ_PTR_TAIL => ⟨.XLT_FQ_PTR, 63, 32, .ro, 0x0⟩  -- R338
  | .XLT_FQ_PTR_HEAD => ⟨.XLT_FQ_PTR, 31, 0, .rw, 0x0⟩  -- R338
  | .XLT_FQ_SEQ_DELIVERED => ⟨.XLT_FQ_SEQ, 63, 32, .ro, 0x0⟩  -- R338
  | .XLT_FQ_SEQ_RESUMED => ⟨.XLT_FQ_SEQ, 31, 0, .ro, 0x0⟩  -- R338
  | .XLT_FQ_RESUME_BATCH => ⟨.XLT_FQ_RESUME, 31, 0, .wo, 0x0⟩  -- R338
  | .XLT_FLT_CNT_BADRES => ⟨.XLT_FLT_CNT, 63, 48, .rw1c, 0x0⟩  -- R339
  | .XLT_FLT_CNT_JOINED => ⟨.XLT_FLT_CNT, 47, 32, .rw1c, 0x0⟩  -- R339
  | .XLT_FLT_CNT_RECORDS => ⟨.XLT_FLT_CNT, 31, 0, .rw1c, 0x0⟩  -- R339
  | .XLT_FLT_STALL_STALLS => ⟨.XLT_FLT_STALL, 63, 0, .rw1c, 0x0⟩  -- R339
  | .XLT_HOT_BASE_EN => ⟨.XLT_HOT_BASE, 63, 63, .rwl, 0x0⟩  -- R336
  | .XLT_HOT_BASE_OFFSET => ⟨.XLT_HOT_BASE, 47, 18, .rwl, 0x0⟩  -- R336
  | .XLT_HOT_PTR_TAIL => ⟨.XLT_HOT_PTR, 63, 32, .ro, 0x0⟩  -- R341
  | .XLT_HOT_PTR_HEAD => ⟨.XLT_HOT_PTR, 31, 0, .rw, 0x0⟩  -- R341
  | .XLT_HOT_DROP_DROPS => ⟨.XLT_HOT_DROP, 63, 0, .rw1c, 0x0⟩  -- R341
  | .TIE_CHM_QUOTA_SMAX => ⟨.TIE_CHM_QUOTA, 63, 48, .rwl, 0xFFFF⟩  -- R294
  | .TIE_CHM_QUOTA_SMIN => ⟨.TIE_CHM_QUOTA, 47, 32, .rwl, 0x0⟩  -- R294
  | .TIE_CHM_QUOTA_PMAX => ⟨.TIE_CHM_QUOTA, 31, 16, .rwl, 0xFFFF⟩  -- R294
  | .TIE_CHM_QUOTA_PMIN => ⟨.TIE_CHM_QUOTA, 15, 0, .rwl, 0x0⟩  -- R294
  | .TIE_CNT_SHORT => ⟨.TIE_CNT, 63, 48, .rw1c, 0x0⟩  -- R295
  | .TIE_CNT_UNSTAGED => ⟨.TIE_CNT, 47, 32, .rw1c, 0x0⟩  -- R295
  | .TIE_CNT_STAGE => ⟨.TIE_CNT, 31, 16, .rw1c, 0x0⟩  -- R295
  | .TIE_CNT_PROMOTE => ⟨.TIE_CNT, 15, 0, .rw1c, 0x0⟩  -- R295
  | .FLW_TBL_VALID_VALID => ⟨.FLW_TBL_VALID, 63, 0, .ro, 0x0⟩  -- R424
  | .FLW_CNT_HDR => ⟨.FLW_CNT, 63, 48, .rw1c, 0x0⟩  -- R425
  | .FLW_CNT_DATA => ⟨.FLW_CNT, 47, 32, .rw1c, 0x0⟩  -- R425
  | .FLW_CNT_TABLE => ⟨.FLW_CNT, 31, 16, .rw1c, 0x0⟩  -- R425
  | .FLW_CNT_POISON_IN => ⟨.FLW_CNT, 15, 0, .rw1c, 0x0⟩  -- R425
  | .HRD_CFG_WAIT => ⟨.HRD_CFG, 47, 32, .rwl, 0x32⟩  -- R459
  | .HRD_CFG_PIN_MAX => ⟨.HRD_CFG, 23, 16, .rwl, 0x32⟩  -- R459
  | .HRD_CFG_MCOUNT => ⟨.HRD_CFG, 15, 8, .rwl, 0x0⟩  -- R459
  | .HRD_CFG_MFIRST => ⟨.HRD_CFG, 7, 0, .rwl, 0x0⟩  -- R459
  | .HRD_IDX_EN => ⟨.HRD_IDX, 63, 63, .rwl, 0x0⟩  -- R460
  | .HRD_IDX_SIZE_LOG2 => ⟨.HRD_IDX, 52, 48, .rwl, 0xA⟩  -- R460
  | .HRD_IDX_OFFSET => ⟨.HRD_IDX, 47, 16, .rwl, 0x0⟩  -- R460
  | .HRD_POOL_COUNT => ⟨.HRD_POOL, 51, 32, .rwl, 0x0⟩  -- R461
  | .HRD_POOL_FIRST => ⟨.HRD_POOL, 19, 0, .rwl, 0x0⟩  -- R461
  | .HRD_PACK_EN => ⟨.HRD_PACK, 63, 63, .rw, 0x0⟩  -- R462
  | .HRD_PACK_USED => ⟨.HRD_PACK, 42, 20, .ro, 0x0⟩  -- R462
  | .HRD_PACK_EXTENT => ⟨.HRD_PACK, 19, 0, .rw, 0x0⟩  -- R462
  | .HRD_CNT_EVICT => ⟨.HRD_CNT, 63, 48, .rw1c, 0x0⟩  -- R466
  | .HRD_CNT_FALLBACK => ⟨.HRD_CNT, 47, 32, .rw1c, 0x0⟩  -- R466
  | .HRD_CNT_HANDOFF => ⟨.HRD_CNT, 31, 16, .rw1c, 0x0⟩  -- R466
  | .HRD_CNT_HOFF_ABORT => ⟨.HRD_CNT, 15, 0, .rw1c, 0x0⟩  -- R466
  | .HRD_COMPAT_VALID => ⟨.HRD_COMPAT, 63, 63, .rw, 0x0⟩  -- R463
  | .HRD_COMPAT_FAMILY => ⟨.HRD_COMPAT, 55, 48, .rw, 0x0⟩  -- R463
  | .HRD_COMPAT_TO => ⟨.HRD_COMPAT, 47, 24, .rw, 0x0⟩  -- R463
  | .HRD_COMPAT_FROM => ⟨.HRD_COMPAT, 23, 0, .rw, 0x0⟩  -- R463
  | .HRD_BKT_PREV_V => ⟨.HRD_BKT, 16, 16, .rw, 0x0⟩  -- R464
  | .HRD_BKT_PREV => ⟨.HRD_BKT, 15, 8, .rw, 0x0⟩  -- R464
  | .HRD_BKT_DEV => ⟨.HRD_BKT, 7, 0, .rw, 0x0⟩  -- R464
  | .TBL_TIME_MOVE_TMO => ⟨.TBL_TIME, 63, 48, .rwl, 0xA⟩  -- R510
  | .TBL_TIME_MOVE_GRACE => ⟨.TBL_TIME, 47, 28, .rwl, 0x7D0⟩  -- R510
  | .TBL_TIME_PUB_TMO => ⟨.TBL_TIME, 27, 14, .rwl, 0xC8⟩  -- R510
  | .TBL_TIME_GRACE => ⟨.TBL_TIME, 13, 0, .rwl, 0x32⟩  -- R510
  | .TBL_HOT_BASE_EN => ⟨.TBL_HOT_BASE, 63, 63, .rwl, 0x0⟩  -- R513
  | .TBL_HOT_BASE_OFFSET => ⟨.TBL_HOT_BASE, 47, 17, .rwl, 0x0⟩  -- R513
  | .TBL_HOT_PTR_TAIL => ⟨.TBL_HOT_PTR, 63, 32, .ro, 0x0⟩  -- R513
  | .TBL_HOT_PTR_HEAD => ⟨.TBL_HOT_PTR, 31, 0, .rw, 0x0⟩  -- R513
  | .TBL_HOT_DROP_DROPS => ⟨.TBL_HOT_DROP, 63, 0, .rw1c, 0x0⟩  -- R513
  | .TBL_CNT_VRETIRED => ⟨.TBL_CNT, 63, 48, .rw1c, 0x0⟩  -- R514
  | .TBL_CNT_REROUTE => ⟨.TBL_CNT, 47, 32, .rw1c, 0x0⟩  -- R514
  | .TBL_CNT_FORWARD => ⟨.TBL_CNT, 31, 16, .rw1c, 0x0⟩  -- R514
  | .TBL_CNT_PUB_ABORT => ⟨.TBL_CNT, 15, 0, .rw1c, 0x0⟩  -- R514
  | .TBL_DROP_CNT_INDICES => ⟨.TBL_DROP_CNT, 63, 0, .rw1c, 0x0⟩  -- R514
  | .GAL_CFG_WAIT => ⟨.GAL_CFG, 47, 32, .rwl, 0x32⟩  -- R542
  | .GAL_CFG_MCOUNT => ⟨.GAL_CFG, 15, 8, .rwl, 0x0⟩  -- R542
  | .GAL_CFG_MFIRST => ⟨.GAL_CFG, 7, 0, .rwl, 0x0⟩  -- R542
  | .GAL_CNT_BADNODE => ⟨.GAL_CNT, 63, 48, .rw1c, 0x0⟩  -- R543
  | .GAL_CNT_FULL => ⟨.GAL_CNT, 47, 32, .rw1c, 0x0⟩  -- R543
  | .GAL_CNT_FALLBACK => ⟨.GAL_CNT, 31, 16, .rw1c, 0x0⟩  -- R543
  | .GAL_CNT_STALE => ⟨.GAL_CNT, 15, 0, .rw1c, 0x0⟩  -- R543
  | .GAL_TOMB_CNT_SLOTS => ⟨.GAL_TOMB_CNT, 63, 0, .rw1c, 0x0⟩  -- R543
  | .GAL_CACHE_CLR_CLR => ⟨.GAL_CACHE_CLR, 0, 0, .wo, 0x0⟩  -- R544
  | .NET_WCACHE_EN => ⟨.NET_WCACHE, 63, 63, .rwl, 0x0⟩  -- R573
  | .NET_WCACHE_COUNT => ⟨.NET_WCACHE, 51, 32, .rwl, 0x0⟩  -- R573
  | .NET_WCACHE_FIRST => ⟨.NET_WCACHE, 19, 0, .rwl, 0x0⟩  -- R573
  | .NET_PTL_CFG_EN => ⟨.NET_PTL_CFG, 63, 63, .rwl, 0x0⟩  -- R574
  | .NET_PTL_CFG_RING => ⟨.NET_PTL_CFG, 57, 52, .rwl, 0x0⟩  -- R574
  | .NET_PTL_CFG_MAXOPS => ⟨.NET_PTL_CFG, 51, 40, .rwl, 0x100⟩  -- R574
  | .NET_PTL_CFG_COUNT => ⟨.NET_PTL_CFG, 39, 20, .rwl, 0x0⟩  -- R574
  | .NET_PTL_CFG_FIRST => ⟨.NET_PTL_CFG, 19, 0, .rwl, 0x0⟩  -- R574
  | .NET_V1_TBL_EN => ⟨.NET_V1_TBL, 63, 63, .rw, 0x0⟩  -- R574
  | .NET_V1_TBL_TABLE => ⟨.NET_V1_TBL, 27, 0, .rw, 0x0⟩  -- R574
  | .NET_WIN_EN => ⟨.NET_WIN, 63, 63, .rw, 0x0⟩  -- R573
  | .NET_WIN_STATE => ⟨.NET_WIN, 62, 61, .ro, 0x0⟩  -- R573
  | .NET_WIN_QP => ⟨.NET_WIN, 43, 32, .rw, 0x0⟩  -- R573
  | .NET_WIN_RKEY => ⟨.NET_WIN, 31, 0, .rw, 0x0⟩  -- R573
  | .CHM_RING_BASE_BASE => ⟨.CHM_RING_BASE, 51, 12, .rw, 0x0⟩  -- R256
  | .CHM_RING_CBASE_BASE => ⟨.CHM_RING_CBASE, 51, 12, .rw, 0x0⟩  -- R256
  | .CHM_RING_CFG_EN => ⟨.CHM_RING_CFG, 31, 31, .rw, 0x0⟩  -- R257
  | .CHM_RING_CFG_SIZE_LOG2 => ⟨.CHM_RING_CFG, 28, 24, .rw, 0x6⟩  -- R257
  | .CHM_RING_DB_TAIL => ⟨.CHM_RING_DB, 31, 0, .wo, 0x0⟩  -- R258
  | .CHM_RING_CHD_CHEAD => ⟨.CHM_RING_CHD, 31, 0, .rw, 0x0⟩  -- R258
  | .CHM_RING_STS_HEAD => ⟨.CHM_RING_STS, 63, 32, .ro, 0x0⟩  -- R259
  | .CHM_RING_STS_INFLIGHT => ⟨.CHM_RING_STS, 31, 16, .ro, 0x0⟩  -- R259
  | .CHM_RING_STS_DB_ERR => ⟨.CHM_RING_STS, 15, 8, .rw1c, 0x0⟩  -- R259
  | .CHM_RING_STS_STATE => ⟨.CHM_RING_STS, 1, 0, .ro, 0x0⟩  -- R259
  | .CHM_RING_SIG_MODE => ⟨.CHM_RING_SIG, 63, 62, .rw, 0x0⟩  -- R260
  | .CHM_RING_SIG_TARGET => ⟨.CHM_RING_SIG, 47, 32, .rw, 0x0⟩  -- R260
  | .CHM_RING_SIG_TIME => ⟨.CHM_RING_SIG, 31, 16, .rw, 0x0⟩  -- R260
  | .CHM_RING_SIG_COUNT => ⟨.CHM_RING_SIG, 15, 0, .rw, 0x1⟩  -- R260

/-- The named fields of a register, high bits first. -/
def Reg.fields : Reg → List Fld
  | .SEC_DEVID => [.SEC_DEVID_PART, .SEC_DEVID_STEPPING, .SEC_DEVID_GRADE_E]
  | .SEC_BOOT => [.SEC_BOOT_BOOT]
  | .SEC_SERIAL => [.SEC_SERIAL_SERIAL]
  | .SEC_FLOOR => [.SEC_FLOOR_BSV, .SEC_FLOOR_FSV, .SEC_FLOOR_LSV, .SEC_FLOOR_SEQ]
  | .BND_CMD => [.BND_CMD_ARG, .BND_CMD_INDEX, .BND_CMD_TARGET, .BND_CMD_OP]
  | .BND_STS => [.BND_STS_ERR_OFFSET, .BND_STS_BUSY, .BND_STS_ACTIVE, .BND_STS_FALLBACK, .BND_STS_SELECTED, .BND_STS_RUNNING, .BND_STS_ERR]
  | .BND_BUF => [.BND_BUF_WORD]
  | .CLK_STS => [.CLK_STS_REF_LOST, .CLK_STS_UNLOCK, .CLK_STS_HOLDOVER, .CLK_STS_ROOT_LOCK]
  | .CLK_ACLK_THR => [.CLK_ACLK_THR_CAPPED, .CLK_ACLK_THR_EFFECTIVE, .CLK_ACLK_THR_KEEP]
  | .PWR_POLICY => [.PWR_POLICY_DIM_IDLE, .PWR_POLICY_SHADE_IDLE, .PWR_POLICY_DIM_GROUPS]
  | .PWR_WAKE_CFG => [.PWR_WAKE_CFG_EDGE, .PWR_WAKE_CFG_EN]
  | .PWR_CMD => [.PWR_CMD_OP]
  | .PWR_STS => [.PWR_STS_STATE, .PWR_STS_REFUSED, .PWR_STS_LAST_RESET, .PWR_STS_FAIL_DOM]
  | .PWR_RST => [.PWR_RST_INDEX, .PWR_RST_KIND]
  | .PWR_DOM_STS => [.PWR_DOM_STS_WAKES, .PWR_DOM_STS_STATE]
  | .MRT_RSV_TMO => [.MRT_RSV_TMO_TMO]
  | .MRT_RECALL_TMO => [.MRT_RECALL_TMO_TMO]
  | .MRT_REQ_TMO => [.MRT_REQ_TMO_TMO]
  | .MRT_CNT => [.MRT_CNT_RECALL_TO, .MRT_CNT_REQ_TO, .MRT_CNT_LATE, .MRT_CNT_TKT_EXP, .MRT_CNT_RETRY]
  | .DIR_CFG => [.DIR_CFG_SPARE_EN, .DIR_CFG_SPARE_FOR]
  | .DIR_CNT => [.DIR_CNT_EVICT, .DIR_CNT_STALE, .DIR_CNT_INVAL_TO]
  | .ERR_LOG_STS => [.ERR_LOG_STS_NEXT_SEQ, .ERR_LOG_STS_ULIVE, .ERR_LOG_STS_LIVE]
  | .ERR_LOG_FREE => [.ERR_LOG_FREE_ALL, .ERR_LOG_FREE_SLOT]
  | .ERR_LOST => [.ERR_LOST_COUNT]
  | .ERR_CNT => [.ERR_CNT_CE, .ERR_CNT_UE, .ERR_CNT_C_LOST]
  | .ERR_STS => [.ERR_STS_UE_NEW, .ERR_STS_LOST, .ERR_STS_OVF, .ERR_STS_SIDE_FULL]
  | .ERR_BG_CFG => [.ERR_BG_CFG_DEFER]
  | .ERR_SCRUB_RANGE => [.ERR_SCRUB_RANGE_PAGES, .ERR_SCRUB_RANGE_BASE]
  | .ERR_SCRUB_CTL => [.ERR_SCRUB_CTL_BUSY, .ERR_SCRUB_CTL_T2, .ERR_SCRUB_CTL_START]
  | .ERR_TLM_CFG => [.ERR_TLM_CFG_EN, .ERR_TLM_CFG_STREAM, .ERR_TLM_CFG_PERIOD]
  | .ERR_TLM_PTR => [.ERR_TLM_PTR_TAIL]
  | .ERR_SCRUB_REP => [.ERR_SCRUB_REP_RECORD]
  | .ERR_LOG_ENT => [.ERR_LOG_ENT_ENTRY]
  | .HUB_FP_CFG => [.HUB_FP_CFG_CHAMBERS, .HUB_FP_CFG_SPARE_EN, .HUB_FP_CFG_PEER, .HUB_FP_CFG_MODE]
  | .HUB_FP_STS => [.HUB_FP_STS_LINK_UP, .HUB_FP_STS_RETRAINING, .HUB_FP_STS_WIDTH, .HUB_FP_STS_RATE, .HUB_FP_STS_LANES_OUT, .HUB_FP_STS_LANE_MAP]
  | .HUB_FP_ERR => [.HUB_FP_ERR_DISCARD, .HUB_FP_ERR_PROTO, .HUB_FP_ERR_RETRAIN, .HUB_FP_ERR_REPLAY, .HUB_FP_ERR_CRC]
  | .HUB_FP_LTHR => [.HUB_FP_LTHR_LIMIT]
  | .HUB_EGR_WT => [.HUB_EGR_WT_TC7, .HUB_EGR_WT_TC6, .HUB_EGR_WT_TC5, .HUB_EGR_WT_TC4, .HUB_EGR_WT_TC3]
  | .HUB_LSHARE => [.HUB_LSHARE_RSP, .HUB_LSHARE_SIZE]
  | .HUB_DSHARE => [.HUB_DSHARE_OCC, .HUB_DSHARE_SIZE]
  | .HUB_EVICT_CNT => [.HUB_EVICT_CNT_FRAMES]
  | .HUB_DROP_CNT => [.HUB_DROP_CNT_FRAMES]
  | .XLT_DEVNUM => [.XLT_DEVNUM_DEVNUM]
  | .XLT_T0_CFG => [.XLT_T0_CFG_AFF, .XLT_T0_CFG_SEED]
  | .XLT_T1_CFG => [.XLT_T1_CFG_T1_OK, .XLT_T1_CFG_T1_EXTENTS]
  | .XLT_CNT_CFG => [.XLT_CNT_CFG_DECAY, .XLT_CNT_CFG_THRESH, .XLT_CNT_CFG_SRC]
  | .XLT_EXT_SEL => [.XLT_EXT_SEL_COUNT, .XLT_EXT_SEL_EXTENT]
  | .XLT_EXT_ARG => [.XLT_EXT_ARG_TARGET, .XLT_EXT_ARG_PORT]
  | .XLT_EXT_CMD => [.XLT_EXT_CMD_CHAMBER, .XLT_EXT_CMD_OP]
  | .XLT_EXT_STS => [.XLT_EXT_STS_BUSY, .XLT_EXT_STS_OVERRUN, .XLT_EXT_STS_FAILED_AT]
  | .XLT_EXT_RESULT => [.XLT_EXT_RESULT_CODE]
  | .XLT_EXT_ENT => [.XLT_EXT_ENT_TARGET, .XLT_EXT_ENT_PORT, .XLT_EXT_ENT_GEN, .XLT_EXT_ENT_CHAMBER, .XLT_EXT_ENT_AFFINE, .XLT_EXT_ENT_KIND, .XLT_EXT_ENT_STATE]
  | .XLT_HDM_MAP => [.XLT_HDM_MAP_VALID, .XLT_HDM_MAP_DB, .XLT_HDM_MAP_CHAMBER, .XLT_HDM_MAP_SIZE, .XLT_HDM_MAP_CVA_BASE]
  | .MSN_BRICK_TMO => [.MSN_BRICK_TMO_TMO]
  | .MSN_CO_CFG => [.MSN_CO_CFG_SPARE_EN, .MSN_CO_CFG_SPARE_FOR, .MSN_CO_CFG_SLOTS]
  | .MSN_STS => [.MSN_STS_STATE, .MSN_STS_CHAMBER, .MSN_STS_SLOT, .MSN_STS_SPARE, .MSN_STS_BRICK]
  | .MSN_BUSY => [.MSN_BUSY_OVF, .MSN_BUSY_CYCLES]
  | .MSN_BRICKS => [.MSN_BRICKS_OVF, .MSN_BRICKS_COUNT]
  | .MSN_SEM => [.MSN_SEM_VALUE]
  | .TIE_POOL_CFG => [.TIE_POOL_CFG_PIN_MAX, .TIE_POOL_CFG_STAGE_EXT, .TIE_POOL_CFG_PROMO_EXT]
  | .TIE_WEAR_CFG => [.TIE_WEAR_CFG_LIMIT, .TIE_WEAR_CFG_WARN]
  | .TIE_CART_TMO => [.TIE_CART_TMO_TMO]
  | .TIE_CART_STS => [.TIE_CART_STS_STATE, .TIE_CART_STS_WARN, .TIE_CART_STS_LIMIT, .TIE_CART_STS_POS]
  | .TIE_CART_CMD => [.TIE_CART_CMD_TARGET, .TIE_CART_CMD_SLOT, .TIE_CART_CMD_OP]
  | .TIE_CART_CSTS => [.TIE_CART_CSTS_BUSY, .TIE_CART_CSTS_RESULT, .TIE_CART_CSTS_DONE_EXT]
  | .TIE_CART_WEAR => [.TIE_CART_WEAR_BYTES]
  | .TIE_CART_LIFE => [.TIE_CART_LIFE_BYTES]
  | .TIE_RCV_ENT => [.TIE_RCV_ENT_OUTCOME, .TIE_RCV_ENT_CHAMBER, .TIE_RCV_ENT_SRC, .TIE_RCV_ENT_DST]
  | .TBL_HOT_CFG => [.TBL_HOT_CFG_DECAY, .TBL_HOT_CFG_THRESH, .TBL_HOT_CFG_SAMPLE_LOG2]
  | .TBL_SKETCH => [.TBL_SKETCH_EN, .TBL_SKETCH_TABLE, .TBL_SKETCH_CHAMBER]
  | .HRD_HOFF_TMO => [.HRD_HOFF_TMO_TMO]
  | .TLY_CFG => [.TLY_CFG_THRESH, .TLY_CFG_VOTES, .TLY_CFG_DECAY]
  | .TLY_EXPEL_MAX => [.TLY_EXPEL_MAX_MAX]
  | .TLY_WEIGHT => [.TLY_WEIGHT_MISS, .TLY_WEIGHT_PATH, .TLY_WEIGHT_TIMEOUT, .TLY_WEIGHT_RETRAIN, .TLY_WEIGHT_DOWN, .TLY_WEIGHT_PROTO, .TLY_WEIGHT_CRC]
  | .TLY_STS => [.TLY_STS_SEQ, .TLY_STS_DECIDER, .TLY_STS_EXPELS, .TLY_STS_CONFLICT, .TLY_STS_SELF]
  | .TLY_CMD => [.TLY_CMD_DEVICE, .TLY_CMD_OP]
  | .TLY_PEERS => [.TLY_PEERS_MEMBERS]
  | .TLY_DEV => [.TLY_DEV_PENALTY, .TLY_DEV_SCORE, .TLY_DEV_STATE]
  | .CMP_CMD => [.CMP_CMD_EPOCH, .CMP_CMD_OP]
  | .CMP_STS => [.CMP_STS_EPOCH, .CMP_STS_STAGED, .CMP_STS_STAGED_V, .CMP_STS_GRACE, .CMP_STS_ERR]
  | .CMP_GRACE => [.CMP_GRACE_TMO]
  | .CMP_REVOKE_TMO => [.CMP_REVOKE_TMO_TMO]
  | .CMP_REVOKE => [.CMP_REVOKE_BUSY, .CMP_REVOKE_RESULT, .CMP_REVOKE_COUNT, .CMP_REVOKE_EXTENT]
  | .CMP_RESOLVE => [.CMP_RESOLVE_WINNER, .CMP_RESOLVE_CHAMBER, .CMP_RESOLVE_SLOT]
  | .CMP_CNT => [.CMP_CNT_REROUTE, .CMP_CNT_FORWARD, .CMP_CNT_REVOKE_LATE, .CMP_CNT_EXHAUSTED]
  | .CMP_BUTTRESS => [.CMP_BUTTRESS_EN, .CMP_BUTTRESS_ROLE, .CMP_BUTTRESS_STATE, .CMP_BUTTRESS_CHAMBER, .CMP_BUTTRESS_PEER, .CMP_BUTTRESS_PEER_EXT, .CMP_BUTTRESS_EXTENT]
  | .CMP_ROUTE => [.CMP_ROUTE_VALID, .CMP_ROUTE_STANDIN, .CMP_ROUTE_HOME, .CMP_ROUTE_PORT, .CMP_ROUTE_ALTPORT, .CMP_ROUTE_ALT_EN]
  | .CMP_ROUTE_STG => [.CMP_ROUTE_STG_VALID, .CMP_ROUTE_STG_STANDIN, .CMP_ROUTE_STG_HOME, .CMP_ROUTE_STG_PORT, .CMP_ROUTE_STG_ALTPORT, .CMP_ROUTE_STG_ALT_EN]
  | .CMP_BKT_STG => [.CMP_BKT_STG_PREV_V, .CMP_BKT_STG_PREV, .CMP_BKT_STG_DEV]
  | .NET_PTL_DEV => [.NET_PTL_DEV_PORT, .NET_PTL_DEV_DEDUP]
  | .NET_CC => [.NET_CC_CNP_GAP, .NET_CC_INC_TIME, .NET_CC_INC_STEP, .NET_CC_DEC, .NET_CC_MIN]
  | .NET_PTP_CFG => [.NET_PTP_CFG_EN, .NET_PTP_CFG_PORT, .NET_PTP_CFG_TRANSPORT, .NET_PTP_CFG_LOCKED, .NET_PTP_CFG_DOMAIN, .NET_PTP_CFG_MAXSLEW]
  | .NET_PTP_OFS => [.NET_PTP_OFS_OFS]
  | .NET_CNT => [.NET_CNT_NOADDR, .NET_CNT_DROP, .NET_CNT_PTL_BUSY, .NET_CNT_PFC_OVF, .NET_CNT_QP_ERR]
  | .NET_EP_CFG => [.NET_EP_CFG_MAXFRAME, .NET_EP_CFG_PFC1, .NET_EP_CFG_PFC0, .NET_EP_CFG_MODE]
  | .NET_DSCP_MAP => [.NET_DSCP_MAP_PRIO, .NET_DSCP_MAP_TC]
  | .NET_ADDR_CFG => [.NET_ADDR_CFG_EN, .NET_ADDR_CFG_VLAN_EN, .NET_ADDR_CFG_CHAMBER, .NET_ADDR_CFG_VLAN, .NET_ADDR_CFG_PKEY]
  | .NET_ADDR_IP => [.NET_ADDR_IP_ADDR]
  | .NET_EXP => [.NET_EXP_EN, .NET_EXP_WR, .NET_EXP_CHAMBER, .NET_EXP_COUNT, .NET_EXP_FIRST, .NET_EXP_RKEY]
  | .NET_QP => [.NET_QP_RIP, .NET_QP_DQPN, .NET_QP_SPSN, .NET_QP_RPSN, .NET_QP_DSCP, .NET_QP_PMTU, .NET_QP_ADDR, .NET_QP_TMO, .NET_QP_STATE]
  | .CHM_CFG => [.CHM_CFG_DB_PAGE, .CHM_CFG_CAP, .CHM_CFG_WEIGHT]
  | .CHM_OPS => [.CHM_OPS_MAX, .CHM_OPS_MIN]
  | .CHM_CTL => [.CHM_CTL_RESET, .CHM_CTL_ENABLE]
  | .CHM_STS => [.CHM_STS_STATE, .CHM_STS_REFUSED, .CHM_STS_LAST_ABORTS]
  | .CHM_DRAIN_TMO => [.CHM_DRAIN_TMO_TMO]
  | .CHM_OP_TMO => [.CHM_OP_TMO_TMO]
  | .CHM_CHK_CNT => [.CHM_CHK_CNT_COUNT]
  | .XLT_CHM_ROOT => [.XLT_CHM_ROOT_ROOT]
  | .XLT_INV_CMD => [.XLT_INV_CMD_PAGE, .XLT_INV_CMD_ALL, .XLT_INV_CMD_PAGES]
  | .XLT_INV_STS => [.XLT_INV_STS_OVERRUN, .XLT_INV_STS_TIMEOUT, .XLT_INV_STS_ISSUED, .XLT_INV_STS_REFUSED, .XLT_INV_STS_DONE]
  | .XLT_FQ_BASE => [.XLT_FQ_BASE_OFFSET]
  | .XLT_FQ_CFG => [.XLT_FQ_CFG_AGE, .XLT_FQ_CFG_COUNT]
  | .XLT_FQ_SIG => [.XLT_FQ_SIG_MODE, .XLT_FQ_SIG_TARGET]
  | .XLT_FQ_PTR => [.XLT_FQ_PTR_TAIL, .XLT_FQ_PTR_HEAD]
  | .XLT_FQ_SEQ => [.XLT_FQ_SEQ_DELIVERED, .XLT_FQ_SEQ_RESUMED]
  | .XLT_FQ_RESUME => [.XLT_FQ_RESUME_BATCH]
  | .XLT_FLT_CNT => [.XLT_FLT_CNT_BADRES, .XLT_FLT_CNT_JOINED, .XLT_FLT_CNT_RECORDS]
  | .XLT_FLT_STALL => [.XLT_FLT_STALL_STALLS]
  | .XLT_HOT_BASE => [.XLT_HOT_BASE_EN, .XLT_HOT_BASE_OFFSET]
  | .XLT_HOT_PTR => [.XLT_HOT_PTR_TAIL, .XLT_HOT_PTR_HEAD]
  | .XLT_HOT_DROP => [.XLT_HOT_DROP_DROPS]
  | .TIE_CHM_QUOTA => [.TIE_CHM_QUOTA_SMAX, .TIE_CHM_QUOTA_SMIN, .TIE_CHM_QUOTA_PMAX, .TIE_CHM_QUOTA_PMIN]
  | .TIE_CNT => [.TIE_CNT_SHORT, .TIE_CNT_UNSTAGED, .TIE_CNT_STAGE, .TIE_CNT_PROMOTE]
  | .FLW_TBL_VALID => [.FLW_TBL_VALID_VALID]
  | .FLW_CNT => [.FLW_CNT_HDR, .FLW_CNT_DATA, .FLW_CNT_TABLE, .FLW_CNT_POISON_IN]
  | .HRD_CFG => [.HRD_CFG_WAIT, .HRD_CFG_PIN_MAX, .HRD_CFG_MCOUNT, .HRD_CFG_MFIRST]
  | .HRD_IDX => [.HRD_IDX_EN, .HRD_IDX_SIZE_LOG2, .HRD_IDX_OFFSET]
  | .HRD_POOL => [.HRD_POOL_COUNT, .HRD_POOL_FIRST]
  | .HRD_PACK => [.HRD_PACK_EN, .HRD_PACK_USED, .HRD_PACK_EXTENT]
  | .HRD_CNT => [.HRD_CNT_EVICT, .HRD_CNT_FALLBACK, .HRD_CNT_HANDOFF, .HRD_CNT_HOFF_ABORT]
  | .HRD_COMPAT => [.HRD_COMPAT_VALID, .HRD_COMPAT_FAMILY, .HRD_COMPAT_TO, .HRD_COMPAT_FROM]
  | .HRD_BKT => [.HRD_BKT_PREV_V, .HRD_BKT_PREV, .HRD_BKT_DEV]
  | .TBL_TIME => [.TBL_TIME_MOVE_TMO, .TBL_TIME_MOVE_GRACE, .TBL_TIME_PUB_TMO, .TBL_TIME_GRACE]
  | .TBL_HOT_BASE => [.TBL_HOT_BASE_EN, .TBL_HOT_BASE_OFFSET]
  | .TBL_HOT_PTR => [.TBL_HOT_PTR_TAIL, .TBL_HOT_PTR_HEAD]
  | .TBL_HOT_DROP => [.TBL_HOT_DROP_DROPS]
  | .TBL_CNT => [.TBL_CNT_VRETIRED, .TBL_CNT_REROUTE, .TBL_CNT_FORWARD, .TBL_CNT_PUB_ABORT]
  | .TBL_DROP_CNT => [.TBL_DROP_CNT_INDICES]
  | .GAL_CFG => [.GAL_CFG_WAIT, .GAL_CFG_MCOUNT, .GAL_CFG_MFIRST]
  | .GAL_CNT => [.GAL_CNT_BADNODE, .GAL_CNT_FULL, .GAL_CNT_FALLBACK, .GAL_CNT_STALE]
  | .GAL_TOMB_CNT => [.GAL_TOMB_CNT_SLOTS]
  | .GAL_CACHE_CLR => [.GAL_CACHE_CLR_CLR]
  | .NET_WCACHE => [.NET_WCACHE_EN, .NET_WCACHE_COUNT, .NET_WCACHE_FIRST]
  | .NET_PTL_CFG => [.NET_PTL_CFG_EN, .NET_PTL_CFG_RING, .NET_PTL_CFG_MAXOPS, .NET_PTL_CFG_COUNT, .NET_PTL_CFG_FIRST]
  | .NET_V1_TBL => [.NET_V1_TBL_EN, .NET_V1_TBL_TABLE]
  | .NET_WIN => [.NET_WIN_EN, .NET_WIN_STATE, .NET_WIN_QP, .NET_WIN_RKEY]
  | .CHM_RING_BASE => [.CHM_RING_BASE_BASE]
  | .CHM_RING_CBASE => [.CHM_RING_CBASE_BASE]
  | .CHM_RING_CFG => [.CHM_RING_CFG_EN, .CHM_RING_CFG_SIZE_LOG2]
  | .CHM_RING_DB => [.CHM_RING_DB_TAIL]
  | .CHM_RING_CHD => [.CHM_RING_CHD_CHEAD]
  | .CHM_RING_STS => [.CHM_RING_STS_HEAD, .CHM_RING_STS_INFLIGHT, .CHM_RING_STS_DB_ERR, .CHM_RING_STS_STATE]
  | .CHM_RING_SIG => [.CHM_RING_SIG_MODE, .CHM_RING_SIG_TARGET, .CHM_RING_SIG_TIME, .CHM_RING_SIG_COUNT]

/-- Every register. -/
def allRegs0 : List Reg := [.SEC_DEVID, .SEC_BOOT, .SEC_SERIAL, .SEC_FLOOR, .BND_CMD, .BND_STS, .BND_BUF, .CLK_STS, .CLK_ACLK_THR, .PWR_POLICY, .PWR_WAKE_CFG, .PWR_CMD, .PWR_STS, .PWR_RST, .PWR_DOM_STS, .MRT_RSV_TMO, .MRT_RECALL_TMO, .MRT_REQ_TMO, .MRT_CNT, .DIR_CFG]
def allRegs1 : List Reg := [.DIR_CNT, .ERR_LOG_STS, .ERR_LOG_FREE, .ERR_LOST, .ERR_CNT, .ERR_STS, .ERR_BG_CFG, .ERR_SCRUB_RANGE, .ERR_SCRUB_CTL, .ERR_TLM_CFG, .ERR_TLM_PTR, .ERR_SCRUB_REP, .ERR_LOG_ENT, .HUB_FP_CFG, .HUB_FP_STS, .HUB_FP_ERR, .HUB_FP_LTHR, .HUB_EGR_WT, .HUB_LSHARE, .HUB_DSHARE]
def allRegs2 : List Reg := [.HUB_EVICT_CNT, .HUB_DROP_CNT, .XLT_DEVNUM, .XLT_T0_CFG, .XLT_T1_CFG, .XLT_CNT_CFG, .XLT_EXT_SEL, .XLT_EXT_ARG, .XLT_EXT_CMD, .XLT_EXT_STS, .XLT_EXT_RESULT, .XLT_EXT_ENT, .XLT_HDM_MAP, .MSN_BRICK_TMO, .MSN_CO_CFG, .MSN_STS, .MSN_BUSY, .MSN_BRICKS, .MSN_SEM, .TIE_POOL_CFG]
def allRegs3 : List Reg := [.TIE_WEAR_CFG, .TIE_CART_TMO, .TIE_CART_STS, .TIE_CART_CMD, .TIE_CART_CSTS, .TIE_CART_WEAR, .TIE_CART_LIFE, .TIE_RCV_ENT, .TBL_HOT_CFG, .TBL_SKETCH, .HRD_HOFF_TMO, .TLY_CFG, .TLY_EXPEL_MAX, .TLY_WEIGHT, .TLY_STS, .TLY_CMD, .TLY_PEERS, .TLY_DEV, .CMP_CMD, .CMP_STS]
def allRegs4 : List Reg := [.CMP_GRACE, .CMP_REVOKE_TMO, .CMP_REVOKE, .CMP_RESOLVE, .CMP_CNT, .CMP_BUTTRESS, .CMP_ROUTE, .CMP_ROUTE_STG, .CMP_BKT_STG, .NET_PTL_DEV, .NET_CC, .NET_PTP_CFG, .NET_PTP_OFS, .NET_CNT, .NET_EP_CFG, .NET_DSCP_MAP, .NET_ADDR_CFG, .NET_ADDR_IP, .NET_EXP, .NET_QP]
def allRegs5 : List Reg := [.CHM_CFG, .CHM_OPS, .CHM_CTL, .CHM_STS, .CHM_DRAIN_TMO, .CHM_OP_TMO, .CHM_CHK_CNT, .XLT_CHM_ROOT, .XLT_INV_CMD, .XLT_INV_STS, .XLT_FQ_BASE, .XLT_FQ_CFG, .XLT_FQ_SIG, .XLT_FQ_PTR, .XLT_FQ_SEQ, .XLT_FQ_RESUME, .XLT_FLT_CNT, .XLT_FLT_STALL, .XLT_HOT_BASE, .XLT_HOT_PTR]
def allRegs6 : List Reg := [.XLT_HOT_DROP, .TIE_CHM_QUOTA, .TIE_CNT, .FLW_TBL_VALID, .FLW_CNT, .HRD_CFG, .HRD_IDX, .HRD_POOL, .HRD_PACK, .HRD_CNT, .HRD_COMPAT, .HRD_BKT, .TBL_TIME, .TBL_HOT_BASE, .TBL_HOT_PTR, .TBL_HOT_DROP, .TBL_CNT, .TBL_DROP_CNT, .GAL_CFG, .GAL_CNT]
def allRegs7 : List Reg := [.GAL_TOMB_CNT, .GAL_CACHE_CLR, .NET_WCACHE, .NET_PTL_CFG, .NET_V1_TBL, .NET_WIN, .CHM_RING_BASE, .CHM_RING_CBASE, .CHM_RING_CFG, .CHM_RING_DB, .CHM_RING_CHD, .CHM_RING_STS, .CHM_RING_SIG]
def allRegs : List Reg := allRegs0 ++ allRegs1 ++ allRegs2 ++ allRegs3 ++ allRegs4 ++ allRegs5 ++ allRegs6 ++ allRegs7

/-- Every field. -/
def allFlds : List Fld := allRegs.flatMap Reg.fields

end Sys2Proof.Machine
end

