-- ==== Sys2Proof/Machine/Device.lean ====
section
/-!
DEFINITION. What the device holds, as plain data: the state behind the registers, chapter by chapter.
Registers themselves are held field by field (`Machine/Field.lean`).
-/

namespace Sys2Proof.Machine

/-! ### Extents (02) -/

/-- STATE of an extent (R56). -/
inductive ExtState where
  | absent | free | open_ | immutable | settling | revoking | lost
deriving DecidableEq, Repr

/-- KIND of an extent (R56). -/
inductive ExtKind where
  | device | t0 | t1 | t2 | lent | remote | none
deriving DecidableEq, Repr

/-- An extent table entry but for KIND and AFFINE, which follow from the extent number (R44, R47, R56). -/
structure Ext where
  target : Nat
  port : Nat
  gen : Nat
  chamber : Nat
  st : ExtState
deriving DecidableEq, Repr

/-- The extent command in progress (R72, R757): OP, CHAMBER, the first extent, COUNT, extents changed so far. -/
structure ExtCmd where
  op : Nat
  chamber : Nat
  first : Nat
  count : Nat
  done : Nat
  /-- bursts of zeros that the lender of the present extent has answered (R62, R64) -/
  zeros : Nat
  /-- the backing of the present extent has failed since FREE reached it (R59) -/
  lost : Bool := false
deriving DecidableEq, Repr

/-! ### Links and the Hub (03) -/

/-- A flit sent and not acknowledged (R90, R95): SEQ, KIND, the credit it returns (share, class, slots), its slots, and how often it
has been resent for a NAK (R97). -/
structure SentFlit where
  seq : Nat
  kind : Nat
  ret : Nat × Nat × Nat
  slots : List Bytes
  resent : Nat := 0
deriving DecidableEq, Repr

/-- One end of a Mortar link (R94-R104): the SEQ expected next, flits received since the last ACK sent, whether a NAK stands;
the SEQ of the next new flit, the flits sent and not acknowledged, oldest first; the times of the retrains of the last 10 ms; whether it trains; flits failing the CRC toward the next 1,024. -/
structure Link where
  expect : Nat
  unacked : Nat
  nakked : Bool
  nextSeq : Nat
  replay : List SentFlit
  retrains : List Nat
  training : Bool
  crcFails : Nat
  /-- FEC-corrected bytes in the present 1 ms window, per physical lane (R102) -/
  fec : Map Nat
  /-- slots of the message being assembled (R143) -/
  slots : List Bytes
  /-- credit in slots this device has granted its partner, per TC + 8 * share (R99) -/
  granted : Map Nat
  /-- credit in slots this device holds toward its partner, per TC + 8 * share -/
  held : Map Nat
  /-- credit in slots not yet returned to the partner, per TC + 8 * share (R99, R114) -/
  owed : Map Nat
  /-- slots of the register request being assembled on a Haresh link (19 R717) -/
  ctrl : List Bytes
  /-- answers to register requests of a Haresh link that no flit carries yet, oldest first (19 R719) -/
  answers : List (List Bytes)
  /-- the Haresh link is down (14 R553) -/
  down : Bool
deriving DecidableEq, Repr

/-- A frame held for an output (R112, R119): cells in it, cells not yet sent, whether it has begun to leave. -/
structure OutFrame where
  out : Nat
  share : Nat
  tc : Nat
  rsp : Bool
  droppable : Bool
  rank : Nat
  id : Nat
  left : Nat
  started : Bool
deriving DecidableEq, Repr

/-- The Hub (R105-R122). `staged` holds the cells in staging slots, oldest first, each with its input;
`frames` the output buffer, oldest first. -/
structure Hub where
  staged : List (Nat × Cell)
  frames : List OutFrame
  grant : Map Nat
  accept : Map Nat
  lastClass : Map Nat
  deficit : Map Nat
  strict : Map Nat
  chamberTurn : Map Nat
deriving DecidableEq, Repr

/-! ### Coherence (04) -/

/-- The coherence class of a page (R136). -/
inductive Cls where
  | held | sharedRead
deriving DecidableEq, Repr

/-- A directory entry's STATE but for BUSY, which is the presence of a transaction (R149). -/
inductive DirState where
  | hs | he | rs
deriving DecidableEq, Repr

/-- A directory entry (R149, R150). `holders` is read while the entry is exact, `mask` while it is coarse. -/
structure DirEnt where
  cls : Cls
  st : DirState
  coarse : Bool
  holders : List Nat
  mask : Nat
  used : Nat
deriving DecidableEq, Repr

/-- An answer of a peer or lender, kept for the requester that waits for it: the pool line, whether it answers a write
or atomic, STATUS, data and poison mark, and WPROT (R145). -/
structure Ans where
  line : Nat
  write : Bool
  status : Nat
  data : Bytes
  poison : Bool
  wprot : Bool
deriving DecidableEq, Repr

/-- For whom the device asked a peer or lender (R174). -/
inductive ReqFor where
  | slot (id : Nat)
  | op (id : Nat)
  | mason (id : Nat)
  | walk (id : Nat)
  | portal (id : Nat)
  /-- the zeroing of a lent extent by ASSIGN (02 R62, R64) -/
  | zero
  /-- the reading of a lent source by a settle, by its journal operation id (07 R283, 02 R64) -/
  | settle (jid : Nat)
  /-- work of the service cores that waits (11, 12, 14) -/
  | svc (n : Nat)
  | none
deriving DecidableEq, Repr

/-- A Recall or Inval sent and not answered (R152, R172): the agent, the tracker tag it echoes, whether it is a
Recall, whether the owner may keep a shared copy, when it was sent, whether a writeback Evict crossed it. -/
structure Snoop where
  agent : Nat
  xtag : Nat
  isRecall : Bool
  toShared : Bool
  sent : Nat
  crossed : Bool
deriving DecidableEq, Repr

/-- For whom a line is BUSY (R154). -/
inductive TxnFor where
  | slot (id : Nat)
  | engine
  | sweep (id : Nat)
  | victim (id : Nat)
  /-- an atomic on a lent line, between its read and its write (R176) -/
  | lock (who : ReqFor)
  /-- the Sweep of a revocation (17 R676) -/
  | revoke
  /-- the directory scan of a warm reset (18 R705) -/
  | scan
deriving DecidableEq, Repr

/-- A transaction that keeps a line BUSY (R154): the open snoops and the holders that kept a shared copy. -/
structure Txn where
  why : TxnFor
  open_ : List Snoop
  kept : List Nat
  poisoned : Bool
deriving DecidableEq, Repr

/-- What a tracker slot waits for. -/
inductive Phase where
  /-- the PTE read of one level (R304) -/
  | walk (level node : Nat)
  /-- a fault record of its page (R319) -/
  | fault (page : Nat)
  /-- a record that cannot be opened yet (R322) -/
  | stalled (page : Nat)
  /-- an extent in SEAL or FREE (R60) -/
  | held (ext : Nat)
  /-- a BUSY line (R154, R163) -/
  | lineBusy (line : Nat)
  /-- its own Recall or Inval (R152) -/
  | snoop
  /-- a page being staged or promoted (R268, R269) -/
  | page (pg : Nat)
  /-- the lender's answer (R64) -/
  | lender
  /-- the gateway window (14) -/
  | gateway
  /-- the home to which it was forwarded (R134) -/
  | forward
  /-- earlier requests of the agent (R175, R210) -/
  | order
  /-- translated, and to be forwarded, once its requester's earlier accesses to its lines have been (R195) -/
  | turn
  /-- the lines of a Sweep (R158, R159) -/
  | sweep
  /-- the memory controller or Barrow (R186) -/
  | tier
  /-- the mirror's Ack of its BMIR (17 R666) -/
  | mirror
deriving DecidableEq, Repr

/-- From where a tracked request came (R218). -/
inductive From where
  | mortar | cxl | peer
deriving DecidableEq, Repr

/-- A request in a home's tracker slot or at its attach device (R162, R186). `pa` is the pool address once translated;
`seq` orders arrivals; `waited` sums the waits of R167 up to `since`, and `holds` counts the HOLDs sent. -/
structure Slot where
  src : From
  port : Nat
  msg : Msg
  cxl : Option CxlReq
  pa : Nat
  cls : Cls
  t0s : Bool
  eng : Bool
  write : Bool
  phase : Phase
  seq : Nat
  since : Nat
  waited : Nat
  holds : Nat
  ticket : Nat
  /-- it has passed stage 4 under the state of its extent at that time (02 R59, R60) -/
  passed : Bool
  /-- lines of a Sweep still to be removed -/
  todo : List Nat
  /-- answers a forwarded Sweep still awaits -/
  parts : Nat
  /-- what lenders and peers answered -/
  ans : List Ans
  scan : Bool
  timedOut : Bool
  /-- level of the leaf that translated it -/
  level : Nat
  /-- the walk in progress is the one that bypasses the caches (08 R308) -/
  bypass : Bool
  /-- epoch of the table by which its sender routed it (17 R670) -/
  epoch : Nat
  /-- a host's request through an HDM-DB window (R139) -/
  db : Bool
  /-- STATE that its Data will carry -/
  give : Nat
  /-- when its request first arrived; `seq` is when it took its turn, that of its ticket for a resend -/
  arr : Nat
  /-- the CVA being translated for it: its own, of a Sweep that of the page reached (R158) -/
  va : Nat
  /-- pool ranges of a Sweep's pages translated so far: PA, lines, class and T0STAGE of the leaf (R134, R158) -/
  spans : List (Nat × Nat × Cls × Bool)
deriving DecidableEq, Repr

/-- A live ticket (R162-R165): its requester, channel, TAG, opcode and lines, the order in which it was issued, and when its request
arrived. -/
structure Ticket where
  src : Nat
  vc : Nat
  tag : Nat
  op : Nat
  line : Nat
  n : Nat
  port : Nat
  seq : Nat
  arr : Nat
deriving DecidableEq, Repr

/-- A request of the device toward a peer or lender (R134, R174). -/
structure DevReq where
  port : Nat
  msg : Msg
  why : ReqFor
  /-- first line asked for, as the asker numbers it -/
  line : Nat
  /-- times it was sent again after RERTE (17 R674) -/
  reroutes : Nat
  /-- leaf level and CVA of the translation by which an engine made it (08 R313) -/
  tr : Option (Nat × Nat) := none
deriving DecidableEq, Repr

/-- A BMIR sent and not answered (17 R666): the CMP_BUTTRESS entry, its BSEQ, who waits, and its TAG. -/
structure Bmir where
  entry : Nat
  bseq : Nat
  why : ReqFor
  tag : Nat
deriving DecidableEq, Repr

/-- The home's coherence state. -/
structure Coh where
  dir : Map DirEnt
  txns : Map Txn
  slots : Map Slot
  tickets : Map Ticket
  nextTicket : Nat
  /-- requester and line whose later requests are blocked by R165 until the named ticket ends -/
  blocks : List (Nat × Nat × Nat)
  reqs : List DevReq
  nextTag : Nat
  nextXtag : Nat
  /-- agents listed by the Bond's topology section: agent id (R132) -/
  agents : List Nat
  clock : Nat
  /-- requests that ended by R174, per agent, since its last Fence (R175) -/
  fenceTo : List Nat
  /-- requests that wait at their ports while 65,535 reservations are live, each with the class of its credit, which is withheld; none
  where no credit was charged (R162) -/
  withheld : List (Nat × Msg × Option Nat)
  /-- snoops of other homes handed to a CXL host as BISnp, not yet answered (R134, R178): port, tag of the BISnp, message -/
  passed : List (Nat × Nat × Msg)
  /-- agents that the Bond lists as CXL hosts (15 R583, 08 R329) -/
  hosts : List Nat
  bmirs : List Bmir
  /-- next BSEQ per CMP_BUTTRESS entry sent, and last applied as mirror -/
  bseq : Map Nat
  bseqIn : Map Nat
  /-- forwarded requests that their home answered with Retry and that were not sent again: agent, TAG, arrival (R148, R175) -/
  retried : List (Nat × Nat × Nat)
  /-- how an agent names a line of which it was last given a copy: AF, Chamber and address; of a CXL host the HPA (log 110) -/
  names : Map (Bool × Nat × Nat)
  /-- accesses of engines that passed stage 4 and have not been performed: for whom, extent, write (02 R59, R60) -/
  admitted : List (ReqFor × Nat × Bool)
  /-- engines that wait for a line, in arrival order: for whom, line, place (R154) -/
  waits : List (ReqFor × Nat × Nat)
  /-- M2S credit of CXL ports not yet returned, per port * 4 + channel: 0 Req, 1 RwD, 2 BIRsp (03 R89) -/
  cxlOwed : Map Nat
  /-- requests that wait at a CXL port for a tracker slot, their credit withheld: port, Mortar opcodes of an HDM-DB and of an HDM-H
  window, request (R154) -/
  cxlWait : List (Nat × Nat × Nat × CxlReq)
  /-- lines of other homes of which a CXL host here was last given exclusive ownership: host, pool line (R178) -/
  owned : List (Nat × Nat)
deriving DecidableEq, Repr

/-! ### Translation and faults (08) -/

/-- A cached translation (R306): `vpn` is the CVA above the leaf, `pte` the leaf or table pointer. -/
structure TlbEnt where
  chamber : Nat
  level : Nat
  vpn : Nat
  pte : Nat
deriving DecidableEq, Repr

/-- A fault record (R317, R319): open on the die while `batch` is none. -/
structure FRec where
  kind : Nat
  level : Nat
  w : Bool
  waiters : Nat
  reqmap : Nat
  opened : Nat
  seq : Nat
  batch : Option Nat
deriving DecidableEq, Repr

/-- An invalidation in progress (R311-R314): a Mortar XINV with its port and message, or a register invalidation. -/
structure Inv where
  chamber : Nat
  port : Option Nat
  msg : Option Msg
  arrived : Nat
  /-- places in arrival order of the tracked requests that a dropped entry translated -/
  deps : List Nat
  /-- tags of the device's requests of engines of the Chamber in flight at its arrival -/
  reqs : List Nat
  /-- the Chamber was DISABLED -/
  disabled : Bool
deriving DecidableEq, Repr

/-- Translation state: caches 0-3 are the TLBs, 4-7 the walk caches, 8 + u the micro-TLB of unit u (Masons 0-143,
XU 144-175, BW 176-207); the most recently used entry stands first. -/
structure Xlt where
  tlb : Map (List TlbEnt)
  recs : Map FRec
  invs : List Inv
  /-- access counters by local page (R328) -/
  acnt : Map Nat
  /-- sources that reached a page since the last halving (R332) -/
  asrc : Map Nat
  /-- XLT_FQ_CFG.COUNT as it stood when each Chamber's open batch began (R337) -/
  fqCount : Map Nat
deriving DecidableEq, Repr

/-! ### Rings and operations (06) -/

/-- Why an engine's access waits. -/
inductive Blk where
  /-- a fault record of the page -/
  | fault (page : Nat)
  | stalled (page : Nat)
  /-- a BUSY line -/
  | line (line : Nat)
  /-- an extent in SEAL or FREE -/
  | held (ext : Nat)
  /-- a page being staged or promoted -/
  | page (pg : Nat)
  /-- an answer of a peer or lender to the request of this line -/
  | answer (line : Nat)
  /-- a granule of a gateway window -/
  | granule (win gran : Nat)
  /-- the atomic unit of a Course (05 R201) -/
  | course (co : Nat)
  /-- a Gallery leaf on which another operation works (13 R536, R539) -/
  | leaf (cva : Nat)
deriving DecidableEq, Repr

/-- A completion record before it is written (R228). -/
structure CRec where
  status : Nat
  opcode : Nat
  applied : Bool
  fallback : Bool
  poison : Bool
  tag : Nat
  count : Nat
  result : Nat
  sig : Bool
deriving DecidableEq, Repr

/-- Where an operation stands. -/
inductive OpPhase where
  | fetch
  | ready
  | blocked (b : Blk)
  /-- waits for events of its own chapter -/
  | waiting
  /-- ended; its record waits to be written -/
  | ending (r : CRec)
deriving DecidableEq, Repr

/-- An operation admitted and not completed (R237, R246). `part` counts the parts of a range already done. -/
structure Op where
  chamber : Nat
  ring : Nat
  idx : Nat
  nslots : Nat
  opcode : Nat
  tag : Nat
  sig : Bool
  fence : Bool
  nfz : Bool
  tc : Nat
  body : Bytes
  phase : OpPhase
  admitted : Nat
  part : Nat
  lines : Nat
  nfzLines : Nat
  poison : Bool
  fallback : Bool
  unstaged : Bool
  applied : Bool
  /-- what lenders and peers answered in the present part -/
  ans : List Ans
  /-- port and HREQ of another device whose Hoard descriptor this is (11 R437) -/
  reply : Option (Nat × Msg)
  /-- Portal request that the operation serves (14 R566) -/
  portal : Option Nat
  /-- what the opcode's chapter counts for COUNT and RESULT -/
  acc : Nat
  acc2 : Nat
  acc3 : Nat
  /-- lines written, by CVA / 64: each counts once (R231) -/
  seen : List Nat
  /-- what the write of its completion record waits for (R239) -/
  wait : Option Blk := none
  /-- its place in the order in which operations were admitted (R238) -/
  order : Nat := 0
deriving DecidableEq, Repr

/-- A work ring beside its registers (R232-R239). -/
structure Ring where
  tail : Nat
  /-- descriptors admitted since the ring was enabled (R237) -/
  admitted : Nat
  written : Nat
  unsig : Nat
  oldest : Nat
deriving DecidableEq, Repr

/-- A Chamber beside its registers: whether a disable was started by a reset, aborts counted, CHB_APPLY waiting. -/
structure ChmSt where
  resetting : Bool
  aborts : Nat
  chb : Bool
  /-- the ring that the front end served last (R238) -/
  last : Nat
deriving DecidableEq, Repr

/-! ### Tiers (07) -/

/-- STATE of a frame (R265). -/
inductive FrameSt where
  | filling | clean | pinned | written
deriving DecidableEq, Repr

/-- A frame of the residence table that is not FREE (R264, R265). `want` are the 4 KiB blocks being copied,
`seq` orders fills, `pin` asks that it become PINNED. -/
structure Frame where
  page : Nat
  st : FrameSt
  valid : Nat
  want : Nat
  chamber : Nat
  seq : Nat
  pin : Bool
  bad : Nat
  /-- lines written back while the frame fills: line, bytes, mark, agent; they are applied when the copy ends (R269, log 18) -/
  late : List (Nat × Bytes × Bool × Nat)
  /-- NVMe command that reads the blocks, when it comes from a cartridge -/
  cmd : Option Nat
deriving DecidableEq, Repr

/-- A settle or cartridge transfer in a journal slot (R283, R292): its journal operation id, the operation it completes, when a
descriptor started it. -/
structure Settle where
  jid : Nat
  op : Option Nat
  chamber : Nat
  src : Nat
  dst : Nat
  done : Nat
  poison : Bool
  transfer : Bool
  /-- it goes on after a reset: its outcome is posted in TIE_RCV_ENT (R286, R300) -/
  recovered : Bool
  /-- all chunks are done and its close record is being journaled (R283) -/
  closing : Bool
  /-- bursts of the present chunk that the lender of a LENT source has answered (R283, 02 R64) -/
  got : Nat
deriving DecidableEq, Repr

/-- An entry of a SCHEDULE in progress (R277): its bytes, whether it has started and ended, pages done. -/
structure SchedEnt where
  raw : Bytes
  started : Bool
  pos : Nat
  ended : Bool
deriving DecidableEq, Repr

/-- Why an NVMe command was sent. -/
inductive CmdFor where
  | fill (page : Nat)
  /-- a read of a settle or transfer, which takes no frame (R283) -/
  | direct
  /-- an unstaged read: for whom, and the 4 KiB block (R287) -/
  | unstaged (why : ReqFor) (blk : Nat)
  /-- a Write, Format NVM or Dataset Management command -/
  | write
  | auth
deriving DecidableEq, Repr

/-- A cartridge slot (R288-R292, R610): fitted, link up, authentication step in progress (0 none), what the cartridge said of
itself, the nonce sent, the threshold entries logged, its commands in progress. -/
structure Cart where
  fitted : Bool
  linkUp : Bool
  authStep : Nat
  serial : Nat
  capacity : Nat
  life : Nat
  cert : Nat
  nonce : Nat
  warned : Bool
  limited : Bool
  /-- the authentication in progress is that of a Bond load (15 R591 step 5), or the first since the cartridge was inserted (R288) -/
  load : Bool
  fresh : Bool
  cmds : Map CmdFor
  nextCmd : Nat
deriving DecidableEq, Repr

/-- A cartridge transfer in progress (R292): source and target slot, the position, extents copied. -/
structure Transfer where
  s : Nat
  t : Nat
  pos : Nat
  done : Nat
deriving DecidableEq, Repr

/-- The tiers' state. -/
structure Tier where
  promo : Map Frame
  stage : Map Frame
  seq : Nat
  settles : Map Settle
  waiting : List Nat
  scheds : Map (List SchedEnt)
  carts : Map Cart
  xfer : Option Transfer
  /-- residence of a transferred extent: committed on the target (R292) -/
  moved : List Nat
deriving DecidableEq, Repr

/-! ### Errors (16) -/

/-- An entry of a poison side list (R623). -/
inductive SideEnt where
  | line (n : Nat)
  | ext (n : Nat)
deriving DecidableEq, Repr

/-- An error log entry (R635). -/
structure LogEnt where
  seq : Nat
  kind : Nat
  u : Bool
  aform : Nat
  tag : Nat
  uclass : Nat
  unit : Nat
  agent : Nat
  detail : Nat
  addr : Nat
  gt : Nat
deriving DecidableEq, Repr

/-- What telemetry counts since its previous entry (R643). -/
structure Tlm where
  t0r : Nat
  t0w : Nat
  t1r : Nat
  cells : Nat
  busy : Nat
  recs : Nat
  logs : Nat
deriving DecidableEq, Repr

/-- What a scrub pass has counted (R628), the local pages of its range, and the status that ends it early. -/
structure Scrub where
  lines : Nat
  corrected : Nat
  uncorr : Nat
  poisoned : Nat
  skipped : Nat
  first : Option Nat
  pages : List Nat
  status : Nat
deriving DecidableEq, Repr

/-- Errors, poison and background work. -/
structure Err where
  /-- poison marks of T0 and T1 lines, frames included, by local line number (R622) -/
  poison : Map Bool
  t2side : List SideEnt
  lentSide : List SideEnt
  log : Map LogEnt
  tlm : Tlm
  /-- units whose background work has waited DEFER (R632): class and index -/
  bg : List (Nat × Nat)
  /-- refreshes done, per stack or 16 + channel, and calibrations, per 64 + stack or 80 + channel (R631) -/
  refresh : Map Nat
  /-- HBM stacks whose refresh interval is halved (20 R753) -/
  fastRefresh : List Nat
  /-- the telemetry ring in the device extent: entry by its place (R643) -/
  tlmRing : Map Bytes
  /-- scrub passes of operations -/
  scrubs : Map Scrub
deriving DecidableEq, Repr

/-! ### Gateway windows and queue pairs (14) -/

/-- A granule of the window cache (R556): the REMOTE page it holds, its Chamber and window, whether its fetch is in
progress, whether it is kept after the fetch (R561), last use. -/
structure Gran where
  chamber : Nat
  win : Nat
  frame : Nat
  fetching : Bool
  keep : Bool
  used : Nat
deriving DecidableEq, Repr

/-- A gateway window's gather buffers (R557): line to mask and bytes; the buffer being flushed and its unacknowledged
WRITEs; lines whose flush is acknowledged while their granule is being fetched (R561). -/
structure Win where
  gather : Map (Nat × Bytes)
  flushing : Map (Nat × Bytes)
  after : Map (Nat × Bytes)
  pendingWrites : Nat
  failed : Bool
  /-- for a line not yet written remotely, the operations that count it among their lines (06 R231) -/
  who : Map (List Nat) := []
deriving DecidableEq, Repr

/-- A request a queue pair has sent and not seen acknowledged (R551): 0 READ of a granule, 1 WRITE of a window,
2 WRITE of Portal bulk output; its first PSN, how many PSNs it takes, what it is for, and its bytes. -/
structure QpReq where
  kind : Nat
  psn : Nat
  n : Nat
  what : Nat
  bytes : Bytes
  tries : Nat
deriving DecidableEq, Repr

/-- A queue pair beside NET_QP (R550, R551, R572): `rate` is R in units of 100 Mb/s, `lastCnp` when it last sent a CNP. -/
structure Qp where
  nextPsn : Nat
  rxPsn : Nat
  sent : List QpReq
  rate : Rat
  lastCnp : Option Nat
  nakked : Bool
deriving DecidableEq, Repr

/-- A frame that a logical port has accepted and no service has taken: its tag (16 is the device's) and class (R548, R549). -/
structure RxFrame where
  port : Nat
  frame : EthFrame
  tag : Nat
  tc : Nat
  /-- the frame of a droppable share that holds it, when it is best-effort (03 R117) -/
  hub : Option Nat
deriving DecidableEq, Repr

/-- A Portal request in flight (R566): its port and datagram, version, Chamber, REQID; its place in the Portal area: offset, bytes
of inline data, offset and bytes of the output area; the descriptor to post and the NOPs before it; how far it is (0 to post, 1 posted,
2 bulk output being written, 3 to answer); its slot in the ring, elements of a v1 row, what peers answered to its post, its record and the record's
bytes, queue pair, RKEY and VA of BULK, whether its WRITE failed. -/
structure PReq where
  port : Nat
  frame : EthFrame
  v1 : Bool
  chamber : Nat
  reqid : Nat
  off : Nat
  inBytes : Nat
  outOff : Nat
  outBytes : Nat
  image : Bytes
  pad : Nat
  stage : Nat
  idx : Nat
  row : Nat
  ans : List Ans
  answer : Option (CRec × Bytes)
  bulk : Option (Nat × Nat × Nat)
  bulkFail : Bool
  /-- request data still to be copied into the area -/
  data : Bytes
  /-- output read from the area, and whether a line of it was poisoned -/
  out : Bytes × Bool
  /-- what its accesses wait for -/
  blk : Option Blk := none
deriving DecidableEq, Repr

/-- An entry of the reply cache (R568): source address and port, REQID, the record's bytes. -/
structure PDone where
  src : Nat
  sport : Nat
  reqid : Nat
  answer : Bytes
deriving DecidableEq, Repr

/-- A pause that a port has sent for a priority (R549): bytes accepted since, and the share and class that have no credit. -/
structure TxPause where
  bytes : Nat
  tag : Nat
  tc : Nat
deriving DecidableEq, Repr


/-! ### Masons (09) -/

/-- A brick issued to a unit and not completed (R355): its bytes, its index, the address registers at issue, whether it
has been performed, whether its result is undefined (R355, R357), what it waits for and what was answered. -/
structure QBrick where
  raw : Bytes
  idx : Nat
  regs : List Nat
  done : Bool
  wild : Bool
  blk : Option Blk
  ans : List Ans
  /-- its place in the order in which its Mason issued its bricks -/
  seq : Nat
deriving DecidableEq, Repr

/-- A Mason beside its registers (R343-R347, R351): the run it serves and its logical number, brick store, next brick,
address registers, active loop counters with the brick that activated each and the iterations left, the units' queues
(0 LOAD, 1 STORE, 2 MATRIX, 3 VECTOR), the semaphore and value a SEMWAIT holds for, whether it stops; scratchpad bytes and
line tags; accumulator words by slot * 4,096 + row * 64 + column, slots of class INT, slot tags. -/
structure Mason where
  run : Option Nat
  logical : Nat
  list : List Bytes
  pc : Nat
  a : List Nat
  loops : Map (Nat × Nat)
  queues : Map (List QBrick)
  wait : Option (Nat × Nat)
  stop : Bool
  mem : List Host.Cell
  tags : Map Bool
  acc : Map Nat
  cls : Map Bool
  accTag : Map Bool
  /-- a library Lay list has run on it: what no brick has written since is free (11 R450, 13 R529) -/
  junk : Option Nat
deriving DecidableEq, Repr

/-- A RUN that waits or runs (R350-R354): its Masons, whether it has started and its list is checked, the Masons that have
ended, the status that stops it with brick and logical Mason, Flowstone blocks failed. -/
structure Run where
  masons : List Nat
  started : Bool
  fetched : Bool
  ended : List Nat
  status : Nat
  stop : Option (Nat × Nat)
  blocks : Nat
deriving DecidableEq, Repr

/-! ### Hoards (11) -/

/-- An operation admitted on a Hoard and not completed (R432, R453): Chamber, key and family of the Hoard, its directory, the
opcode, the bound of R449, the record at admission, whether the match was of the second kind, the order of arrival; of an ATTEND, 0
until it has taken Masons (1) or fallen back (2) (R452); addresses that map entries had before a RELINK, by page (R453). -/
structure HOp where
  chamber : Nat
  key : Bytes
  fam : Nat
  dir : Nat
  kind : Nat
  bound : Nat
  hrec : Bytes
  compat : Bool
  seq : Nat
  mode : Nat := 0
  old : Map Nat := []
deriving DecidableEq, Repr

/-- A handoff at its owner (R455, R456): Chamber, key and family, receiver, s, stage (0 PREPARE is being journaled, 1 COMMIT_REQ
is to be sent or is sent, 2 querying, 3 its outcome is being journaled), aborts so far, STATE to return to, when it reached its stage,
whether COMMIT_REQ has been sent. -/
structure Hoff where
  chamber : Nat
  key : Bytes
  fam : Nat
  tag : Nat
  dev : Nat
  s : Nat
  stage : Nat
  tries : Nat
  old : Nat
  since : Nat
  sent : Bool := false
deriving DecidableEq, Repr

/-- A page of a handoff that has arrived: its number, CMP, KLEN8, VLEN8 and bytes, how many bytes have come, and the 64-byte lines of
it that are poisoned. -/
structure APage where
  n : Nat
  cmp : Bool
  klen : Nat
  vlen : Nat
  bytes : Bytes
  got : Nat
  bad : List Nat := []
deriving DecidableEq, Repr

/-- What the receiver of a handoff holds aside (R455): port of its sender, tag of its messages, Chamber, HSEQ, record, pages; once COMMIT is
being journaled, the record to install. -/
structure Aside where
  port : Nat
  tag : Nat
  chamber : Nat
  hseq : Nat
  hrec : Option Bytes
  pages : List APage
  built : Option Bytes
deriving DecidableEq, Repr

/-- Hoards beside the index and the pages, which lie in memory: operations on them, pool pages allocated (Chamber, local page),
dropped Hoards whose pages are not freed (by the PA of the directory: Chamber and local pages), handoffs. -/
structure Hrd where
  ops : Map HOp
  used : List (Nat × Nat)
  dropped : Map (Nat × List Nat)
  hoffs : Map Hoff
  aside : Map Aside
deriving DecidableEq, Repr

/-! ### Embedding tables (12) -/

/-- An index of a lookup or scatter-add: its bag, the epoch under which it was routed, its weight as FP32; the gradient row
as FP32 words, whether it is poisoned; reroutes so far (R492, R497, R507). -/
structure TEnt where
  idx : Nat
  bag : Nat
  epoch : Nat
  w : Nat
  grad : List Nat
  gp : Bool
  rer : Nat
deriving DecidableEq, Repr

/-- Entries sent to another member and not finally answered: the tag of their message. -/
structure TPart where
  tag : Nat
  ents : List TEnt
deriving DecidableEq, Repr

/-- A lookup or scatter-add in progress at its origin, or a sub-batch at an owner (R479, R492-R495): KSBASE (0 at an owner),
PA of this member's Keystone, version bound, geometry and arrays of that version, entries still to see to and those sent;
FP32 sums by bag * 4,096 + element, kept counts by bag, poisoned bags, indices dropped, entries to bounce, indices kept or entries
applied, those read from replicas, the status so far; whether its version is bound and its indices are still to be read (R479). -/
structure TWork where
  ks : Nat
  pa : Nat
  ver : Nat
  counted : Bool
  grad : Bool
  gfmt : Nat
  fmt : Nat
  rowb : Nat
  span : Nat
  rows : Nat
  base : Nat
  shard : Nat
  rowmap : Nat
  pool : Nat
  outfmt : Nat
  dst : Nat
  nbags : Nat
  todo : List TEnt
  parts : List TPart
  acc : Map Nat
  kept : Map Nat
  poison : List Nat
  drops : Nat
  bounce : List TEnt
  applied : Nat
  replicas : Nat
  status : Nat
  start : Bool := false
deriving DecidableEq, Repr

/-- A move at the old primary (R505): its MIGRATE, table, row, new owner, new epoch; stage (0 MOVE_OPEN is being journaled, 1 RESERVE
is out, 2 MOVING, 3 MOVE_FLIP is being journaled, 4 and 5 ROUTE is out, 6 MOVE_CLOSE is being journaled, 7 over); members that
have not answered, whether COPY is answered, last SEQ given and answered, FLIPGT. -/
structure Move where
  op : Option Nat
  chamber : Nat
  tc : Nat
  ks : Nat
  pa : Nat
  idx : Nat
  b : Nat
  epoch : Nat
  stage : Nat
  wait : List (Nat × Nat)
  copied : Bool
  seq : Nat
  acked : Nat
  flip : Nat
  /-- the table's other members, each with the PA of its Keystone -/
  members : List (Nat × Nat)
deriving DecidableEq, Repr

/-- LOG records of a row at its new owner (R506): PA of the Keystone, index, last SEQ applied, messages held for their turn. -/
structure MLog where
  pa : Nat
  idx : Nat
  last : Nat
  held : List (Nat × Msg)
deriving DecidableEq, Repr

/-- A publish at its coordinator (R483): members with the PA of their Keystone and their new row array; stage (0 PUB_OPEN is being
journaled, 1 STAGE is out, 2 PUB_FLIP is being journaled, 3 FLIP is out, 4 its end is being journaled); members that have not answered;
members flipped. -/
structure Pub where
  op : Option Nat
  chamber : Nat
  tc : Nat
  ks : Nat
  expect : Nat
  new : Nat
  nrows : Nat
  members : List (Nat × Nat × Nat)
  stage : Nat
  wait : List Nat
  flipped : Nat
deriving DecidableEq, Repr

/-- A member's images of its Keystone (R483, R485): where STAGE came from (none: this device), the message, the old, the staged and the flipped
image, whether it is journaled and has flipped, whether the coordinator is being queried. -/
structure KImg where
  port : Option Nat
  msg : Msg
  old : Bytes
  staged : Bytes
  after : Bytes
  done : Bool
  flipped : Bool
  query : Bool
deriving DecidableEq, Repr

/-- A REPLICATE in progress (R503): places and devices that have not answered, RESULT so far. -/
structure Repl where
  op : Nat
  wait : List (Nat × Nat)
  result : Nat
deriving DecidableEq, Repr

/-- A sketch slot (R501, R502): counters by row * 2,048 + column, indices read, the filter, oldest first. -/
structure Sketch where
  counts : Map Nat
  seen : Nat
  posted : List (Nat × Nat)
deriving DecidableEq, Repr

/-- Embedding tables. `held` are STAGE messages that wait for PREV_V (R483). -/
structure Tbl where
  works : Map TWork
  moves : Map Move
  logs : List MLog
  pubs : Map Pub
  imgs : Map KImg
  held : List (Option Nat × Msg)
  repls : Map Repl
  sketch : Map Sketch
deriving DecidableEq, Repr

/-! ### The Gallery (13) -/

/-- A candidate of a walk: distance, item id, vector pointer (R527). -/
structure Cand where
  dist : Nat
  item : Nat
  vec : Nat
deriving DecidableEq, Repr

/-- A result entry (R533). -/
structure GEnt where
  item : Nat
  score : Nat
  dev : Nat
  ham : Bool
deriving DecidableEq, Repr

/-- A Gallery operation in progress, or another member's part (R519, R527-R535): PA of the head, tree bound, geometry, the unit that
walks; the query; stage (0 walk, 1 re-rank, 2 its own part is over); candidates, tombstones skipped, entries, parts sent by tag,
shards that answered OK and that failed, status so far, whether a part fell back. -/
structure GWork where
  pa : Nat
  root : Nat
  gen : Nat
  skcode : Nat
  levels : Nat
  vfmt : Nat
  dim : Nat
  unit : Nat
  sk : Bytes
  vec : Bytes
  stage : Nat
  cands : List Cand
  tombs : Nat
  ents : List GEnt
  parts : List Nat
  ok : Nat
  bad : Nat
  status : Nat
  fell : Bool
  /-- GAL_CFG.WAIT passed with no Mason taken (R531) -/
  late : Bool
  /-- leaves that a DELETE has still to visit (R537) -/
  leaves : List Nat
  /-- the leaf that an INSERT, DELETE or COMPACT works on (R536, R539) -/
  held : Option Nat
  /-- the leaf that such an operation waits for, and its place in the order of arrival there -/
  waits : Option (Nat × Nat)
  /-- leaves that a walker has begun to scan (R539) -/
  scans : List Nat
deriving DecidableEq, Repr

/-- A node in a Gallery unit's cache (R524): unit, Chamber, PA of its head, CVA, bytes. -/
structure CNode where
  unit : Nat
  chamber : Nat
  head : Nat
  cva : Nat
  bytes : Bytes
deriving DecidableEq, Repr

/-- The Gallery: operations, cached nodes, the most recently used first, and the last GEN that each unit saw of each head. -/
structure Gal where
  works : Map GWork
  nodes : List CNode
  gens : List (Nat × Nat × Nat)
deriving DecidableEq, Repr

/-! ### What the device sends -/

/-- The kinds of S2M messages of a CXL port (R178, R221). -/
inductive CxlKind where
  | data | poisoned | cmp | biSnpData | biSnpInv | biConflictAck | commitOk | notCommitted
deriving DecidableEq, Repr

/-- Something the device sends or drives; `State.dev.out` lists them in order. -/
inductive Out where
  /-- a Mortar message on a fabric port (R143) -/
  | msg (port : Nat) (m : Msg)
  /-- a Mortar flit on a fabric port, or on Haresh link HL0 (16) or HL1 (17), first sent or resent (R90, R97) -/
  | flit (port : Nat) (raw : Bytes)
  /-- credit of an M2S channel returned to the host on a CXL port: 0 Req, 1 RwD, 2 BIRsp (R89) -/
  | cxlCredit (port channel : Nat)
  /-- a CXL message (R178) -/
  | cxl (port : Nat) (k : CxlKind) (tag : Nat) (addr : Nat) (exclusive : Bool) (data : Bytes)
  /-- an MSI-X vector (R240) -/
  | msix (port vec : Nat)
  /-- a signal to the control node over a Haresh link: Chamber, ring or 64 for the fault queue, count (R240, R321) -/
  | control (chamber ring count : Nat)
  /-- a notice of ERR_STS to the control node (R639): the bit -/
  | notice (bit : Nat)
  /-- a notice of another chapter to the control node -/
  | report (what arg : Nat)
  /-- an NVMe command to a cartridge: slot, command id, opcode, first block, blocks (R288) -/
  | nvme (slot id opcode lba blocks : Nat) (fua : Bool)
  /-- a cell sent by a Hub output (R118): output, frame -/
  | cell (output frame : Nat)
  /-- a cell moved by the crossbar (R109): input, output -/
  | cross (input output : Nat)
  /-- an Ethernet frame sent on a logical port -/
  | eth (port : Nat) (f : EthFrame)
  /-- a pause of a priority sent, or released (14 R549) -/
  | pause (port prio : Nat) (on : Bool)
  /-- a RoCEv2 packet of a queue pair: opcode, PSN, payload -/
  | rdma (qp opcode psn : Nat) (bytes : Bytes)
  /-- a primary extent copied to its Buttress mirror (17 R665): device, extent there -/
  | mirrorCopy (peer ext : Nat)
  /-- a refresh or calibration of a unit (R631) -/
  | refresh (unit : Nat)
  /-- a telemetry entry streamed to the control node (R643) -/
  | telemetry (bytes : Bytes)
  /-- a message on a Haresh link, by the management path (17 R654) -/
  | haresh (m : Msg)
deriving DecidableEq, Repr

/-- The traffic class in which an output travels (03 R116): a message names its own; management is TC0, snoops of CXL hosts TC1, other
CXL messages the class of what they answer, cartridge reads TC4 and writes TC5, RoCEv2 TC6, telemetry TC7. -/
def Out.tc : Out → Nat
  | .msg _ m => m.tc.toNat
  | .cxl _ k _ _ _ _ => match k with
    | .biSnpData | .biSnpInv | .biConflictAck => 1
    | .data | .poisoned => 3
    | .cmp => 5
    | .commitOk | .notCommitted => 0
  | .nvme _ _ op _ _ _ => if op = 2 then 4 else 5
  | .rdma _ _ _ _ => 6
  | .telemetry _ => 7
  | _ => 0

/-- The network side: frames accepted; Portal requests in flight, by number, and the reply cache, the entry answered longest ago
first; pauses sent and received, by port * 8 + priority; what waits for a received pause; by how many parts per million PTP makes GT
run fast. -/
structure Net where
  rx : List RxFrame
  /-- best-effort frames taken so far -/
  nextRx : Nat
  reqs : Map PReq
  nextReq : Nat
  cache : List PDone
  txPause : Map TxPause
  rxPause : List Nat
  held : List (Nat × Out)
  slew : Int
deriving DecidableEq, Repr

/-! ### Tally and composition (17) -/

/-- Tally beside TLY_DEV and TLY_STS (R652-R658): the last TSCORE taken of each sender, its SEQ and when; in the present tick, the paths
on which each sender's TSCORE arrived (1 fabric, 2 management); low votes standing, by sender * 256 + device, and when each arrived;
when EXPEL decisions were applied; the port on which a lender's extents come. -/
structure Tly where
  taken : Map (Nat × Nat)
  arrived : Map Nat
  votes : Map Nat
  expels : List Nat
deriving DecidableEq, Repr

/-- A revocation in progress (R675, R676): the lender's message and port, none when the control node started it; the run; how many
requests had been admitted when it started, in order of arrival; whether CMP_REVOKE_TMO has ended. -/
structure Revoke where
  from_ : Option (Nat × Msg)
  first : Nat
  count : Nat
  late : Bool
deriving DecidableEq, Repr

/-- A mirror's applied lines wait for those before them (R666): entry, BSEQ, port, message. -/
structure MirrorIn where
  entry : Nat
  bseq : Nat
  port : Nat
  msg : Msg
deriving DecidableEq, Repr

/-- Composition beside its registers: revocations; BMIRs that arrived ahead of their turn; mirror lines of a copy in progress, by
CMP_BUTTRESS entry. -/
structure Comp where
  revokes : List Revoke
  mirrorIn : List MirrorIn
  /-- revocations that wait for the extent command that has their extents in hand: the lender's message and port, none when the
  control node commands it; first extent, count (02 R59) -/
  later : List (Option (Nat × Msg) × Nat × Nat)
deriving DecidableEq, Repr

/-! ### Power and control space (18, 19) -/

/-- The power side of the device beside its registers (18 R693-R706, 20 R752-R755): domains that rise, with the step awaited and whether they
rise from 0 cold, 1 OFF, 2 Dim, 3 Dark; whether LOAD follows the rise of the Base group; a warm reset in its scan, and its cause; the
power-up repeated once; sensors at trip at the last read, and at alert; INLET_HOT_N held; capacity of the module in each MRDIMM channel. -/
structure Pwr where
  rise : Map (Nat × Nat)
  boot : Bool
  warm : Option Nat
  repeated : Bool
  tripped : List Nat
  alert : List Nat
  hot : Bool
  modules : List Nat
deriving DecidableEq, Repr

/-- What each interface holds of wide registers (19 R724): pieces written, by interface * 2^24 + offset; registers captured, by interface *
2^24 + offset of the lowest piece. -/
structure Ctl where
  held : Map Nat
  captured : Map Nat
deriving DecidableEq, Repr

/-! ### The Ledger's journal (15 R587, R588) -/

/-- A journal record (R588). -/
structure JRec where
  typ : Nat
  seq : Nat
  id : Nat
  payload : Bytes
deriving DecidableEq, Repr

/-- A journal record being written: what is sent when it commits, and the operation that ends then, with STATUS, COUNT and
RESULT. -/
structure JWrite where
  entry : JRec
  send : List Out
  fin : Option (Nat × Nat × Nat × Nat)
deriving DecidableEq, Repr

/-- The store that is open (R589): target, index, bytes so far. -/
structure Store where
  target : Nat
  index : Nat
  bytes : Bytes
deriving DecidableEq, Repr

/-- The Ledger (R587, R588, R597, R602, R603): the journal; of the repair map the FAIL marks by class and unit, the cartridge position map
(slot by position), wear counts by slot, boot generation, and SRAM repairs; Bond slots A and B and the selected one; ACTIVE and STAGED
Chamber Bonds by Chamber; two firmware slots; two library slots per index, by index * 2 + slot; owner record, floor record, device
certificate; the T2 map as it stood at the last reset; the store that is open. -/
structure Ledger where
  journal : List JRec
  writes : List JWrite
  jseq : Nat
  cartMap : Map Nat
  fails : List (Nat × Nat)
  repairs : Bytes
  wear : Map Nat
  boot : Nat
  bonds : Map Bytes
  selected : Nat
  chbActive : Map Bytes
  chbStaged : Map Bytes
  firmware : Map Bytes
  libraries : Map Bytes
  owner : Bytes
  floor : Bytes
  cert : Bytes
  t2 : Map Ext
  store : Option Store
deriving DecidableEq, Repr

/-- What a load has taken from the active Bond beside registers (R583, R607-R609): digest of the Bond, digests of the firmware and
libraries in use, roles of each library, spare service cores (cluster, core), Hub port that port 39 replaces, delegate digests by Chamber; HRD_IDX of each Chamber whose index is in use, as EN, SIZE_LOG2 and OFFSET together (11 R458). -/
structure Active where
  bond : Bytes
  firmware : Bytes
  libraries : Map Bytes
  roles : Map Nat
  cores : List (Nat × Nat)
  hubPort : Option Nat
  delegates : Map Bytes
  index : Map Nat
  /-- Chambers that the Bond enables, as a mask (02 R73) -/
  enabled : Nat
deriving DecidableEq, Repr

/-! ### Work of the service cores on pool memory (01 R29-R31) -/

/-- Work on the pool that a message, a journal record or a timer started, and that is taken up again when it must wait: a message of
another device, a TCTL message of this device to itself, what follows a journal record, the end of an operation on a Hoard, a write of
HRD_BKT (records to clear, Hoards to hand off), the pages of a handoff, the query of one, a reader of a version or of a Gallery's GEN
given back, the retirement of a version, a row-map entry of a move, the copy of its row, a staged image, an entry of a hot-page or hot-row
ring, a batch of fault records, a Portal v1 request. -/
inductive Svc where
  | msg (port : Nat) (m : Msg)
  | own (m : Msg)
  | commit (e : JRec)
  | leave (h : HOp)
  | bucket (c b dev : Nat) (clear move : Bool)
  | handOut (id : Nat)
  | query (id : Nat)
  | unread (c pa ver : Nat)
  | galUnread (c pa gen : Nat)
  | retire (c table : Nat)
  | entry (m : Move) (kind dev epoch flip : Nat)
  | copy (key : Nat)
  | image (key : Nat)
  | post (c : Nat) (rows : Bool) (b : Bytes)
  | batch (c b : Nat)
  | v1 (c port : Nat) (f : EthFrame)
  | resolve (winner c slot : Nat)
  | zero (c a n : Nat)
deriving DecidableEq, Repr

/-- Such work as it waits: for which Chamber, what it waits for, and the answers it holds. -/
structure SvcWait where
  work : Svc
  chamber : Nat
  blk : Blk
  ans : List Ans
deriving DecidableEq, Repr

end Sys2Proof.Machine
end

