-- ==== Sys2Proof/Machine/Dev.lean ====
section
/-!
DEFINITION. `Dev`: everything the device holds, as one record of plain data.
-/

namespace Sys2Proof.Machine

/-- The device (all of it but the package sequencer on the board side, which `Pkg` holds). -/
structure Dev where
  /-- register fields by `fldKey`; a field not listed holds its Reset value (00 R11) -/
  regs : Map Nat
  /-- home memory by local offset; an unlisted byte reads 0 -/
  mem : List Host.Cell
  /-- GT, in ns (16 R642) -/
  gt : Nat
  /-- how many free values have been drawn -/
  fresh : Nat
  /-- what the device has sent, newest first -/
  out : List Out
  /-- the extent table (02 R56), ABSENT where not listed -/
  ext : Map Ext
  extCmd : Option ExtCmd
  /-- key under which a T1 or T2 extent was written (15 R606) -/
  extKey : Map Nat
  /-- committed HDM decoders: HPA base by port * 8 + decoder (02 R76) -/
  hdm : Map Nat
  link : Map Link
  /-- messages that flits delivered and no command has taken yet, oldest first: port, message, class of the credit charged -/
  delivered : List (Nat × Msg × Nat)
  /-- messages handed to the link layer and not yet in flits, oldest first: port and message (03 R94, R99) -/
  tx : List (Nat × Msg)
  hub : Hub
  coh : Coh
  xlt : Xlt
  ops : Map Op
  nextOp : Nat
  rings : Map Ring
  chm : Map ChmSt
  tier : Tier
  led : Ledger
  /-- tables of the Chambers' Flowstone table stores, by Chamber * 64 + index (10 R407) -/
  flow : Map Bytes
  /-- tables that a TABLES descriptor has read and checked, by operation (10 R410) -/
  flowIn : Map (List Bytes)
  err : Err
  masons : Map Mason
  runs : Map Run
  hrd : Hrd
  tbl : Tbl
  gal : Gal
  /-- gather units and Gallery units of each Chamber, as masks (15 R582) -/
  unitsOf : Map (Nat × Nat)
  /-- events of the present tick that Tally will score, by device * 8 + weight (17 R652) -/
  tlyEv : Map Nat
  /-- 1 + KEYID of each Chamber's KEY record; a Chamber not listed has no key (15 R605) -/
  chmKey : Map Nat
  /-- granules of the window caches by local page of the REMOTE extent (14 R556) -/
  grans : Map Gran
  /-- gather buffers by Chamber * 64 + window (14 R557) -/
  wins : Map Win
  qps : Map Qp
  net : Net
  tly : Tly
  comp : Comp
  pwr : Pwr
  ctl : Ctl
  act : Active
  /-- epoch of the last EMARK of each PEER port (17 R670) -/
  portEpoch : Map Nat
  /-- records of operations that Portal requests started, and their bytes, by request (14 R566) -/
  portalDone : Map (CRec × Bytes)
  /-- work of the service cores that waits, oldest first by its number -/
  svcs : Map SvcWait
  nextSvc : Nat
deriving DecidableEq, Repr

end Sys2Proof.Machine
end

