-- ==== Sys2Proof/Machine/Regs.lean ====
section
/-!
DEFINITION. Reading and writing register fields (00 R9-R12, 19 R723, R730).
Every read and write of a field, by the hardware or by software, goes through `Dev.rf` and `Dev.wf`.
-/

namespace Sys2Proof.Machine

/-- The key of instance `i` of a field in `Dev.regs`. -/
def fldKey (f : Fld) (i : Nat) : Nat := f.ctorIdx + 1024 * i

/-- Width of a field in bits. -/
def Fld.width (f : Fld) : Nat := f.info.hi + 1 - f.info.lo

/-- The Reset value of the field. -/
def Fld.reset (f : Fld) : Nat := f.info.reset

/-- The value of instance `i` of a field. -/
def Dev.rf (d : Dev) (f : Fld) (i : Nat := 0) : Nat := sget f.reset d.regs (fldKey f i)

/-- The device with `v`, cut to the field's width, in instance `i` of the field. -/
def Dev.wf (d : Dev) (f : Fld) (i : Nat) (v : Nat) : Dev :=
  { d with regs := sput f.reset d.regs (fldKey f i) (v % 2 ^ f.width) }

/-- A one-bit field as a truth value. -/
def Dev.rb (d : Dev) (f : Fld) (i : Nat := 0) : Bool := d.rf f i == 1

/-- A one-bit field written from a truth value. -/
def Dev.wb (d : Dev) (f : Fld) (i : Nat) (b : Bool) : Dev := d.wf f i (b2n b)

/-- A saturating counter field raised by `n` (16 R640). -/
def Dev.bump (d : Dev) (f : Fld) (i : Nat := 0) (n : Nat := 1) : Dev :=
  d.wf f i (satAdd f.width (d.rf f i) n)

/-- A free-running counter field raised by `n`, modulo its width. -/
def Dev.inc (d : Dev) (f : Fld) (i : Nat := 0) (n : Nat := 1) : Dev := d.wf f i (d.rf f i + n)

/-- A field returned to its Reset value. -/
def Dev.clearFld (d : Dev) (f : Fld) (i : Nat := 0) : Dev :=
  { d with regs := kdel d.regs (fldKey f i) }

/-- A fresh free value's number; each is drawn once. -/
def Dev.drawn (d : Dev) : Dev := { d with fresh := d.fresh + 1 }

/-- The message may leave: on a PEER port a device that has applied EXPELLED to itself sends nothing but TSCORE (17 R660). -/
def Dev.maySend (d : Dev) (p : Nat) (m : Msg) : Bool :=
  !(d.rf .TLY_STS_SELF == 3 && d.rb .HUB_FP_CFG_PEER p) || m.op == 0x60#8

/-- The device after it has sent `o`; a Mortar message also goes to its port's link layer (03 R94). -/
def Dev.send (d : Dev) (o : Out) : Dev :=
  match o with
  | .msg p m => if d.maySend p m then { d with out := o :: d.out, tx := d.tx ++ [(p, m)] } else d
  | _ => { d with out := o :: d.out }

/-- A Bond is active (15 R613). -/
def Dev.active (d : Dev) : Bool := d.rb .BND_STS_ACTIVE

/-- This device's number (02 R66). -/
def Dev.devnum (d : Dev) : Nat := d.rf .XLT_DEVNUM_DEVNUM

/-- GT in microseconds, modulo 2^32: a stamp (06 R228, 08 R332). -/
def Dev.stamp (d : Dev) : Nat := u32 (d.gt / 1000)

/-- STATE of a Chamber as CHM_STS reports it (06 R252): 0 OFF, 1 ENABLED, 2 DRAINING, 3 ABORTING, 4 DISABLED,
5 RESETTING. -/
def Dev.chmState (d : Dev) (c : Nat) : Nat := d.rf .CHM_STS_STATE c

/-- The active Bond defines the Chamber. -/
def Dev.chmDefined (d : Dev) (c : Nat) : Bool := d.active && d.chmState c != 0

/-- Ring `r` of Chamber `c` as an instance number. -/
def ringIx (c r : Nat) : Nat := c * 64 + r

end Sys2Proof.Machine
end

