-- ==== Sys2Proof/Machine/Mem.lean ====
section
/-!
DEFINITION. Home memory by local offset: bytes, ranges of bytes, and the copying and clearing of whole ranges.
An unlisted byte reads 0 (log 2). Lists of cells keep their canonical form: rising addresses, no byte 0.
-/

namespace Sys2Proof.Machine

/-- One byte of home memory. -/
def Dev.byte (d : Dev) (a : Nat) : Byte := sget 0 d.mem a

/-- `n` bytes from `a`. -/
def Dev.rdMem (d : Dev) (a n : Nat) : Bytes := (List.range n).map (fun i => d.byte (a + i))

/-- The cells that list the non-zero bytes of `l` placed at `a`. -/
def cellsOf : Nat → Bytes → List Host.Cell
  | _, [] => []
  | a, b :: l => if b = 0 then cellsOf (a + 1) l else (a, b) :: cellsOf (a + 1) l

/-- Memory cells with the range [a, a + n) replaced by `new`, whose addresses lie in that range. -/
def splice (m : List Host.Cell) (a n : Nat) (new : List Host.Cell) : List Host.Cell :=
  m.filter (fun c => decide (c.1 < a)) ++ new ++ m.filter (fun c => decide (a + n ≤ c.1))

/-- The device with the bytes `l` written at `a`. -/
def Dev.wrMem (d : Dev) (a : Nat) (l : Bytes) : Dev :=
  { d with mem := splice d.mem a l.length (cellsOf a l) }

/-- The device with `n` bytes from `a` set to 0. -/
def Dev.zeroMem (d : Dev) (a n : Nat) : Dev := { d with mem := splice d.mem a n [] }

/-- The listed cells of [a, a + n). -/
def Dev.cells (d : Dev) (a n : Nat) : List Host.Cell :=
  d.mem.filter (fun c => decide (a ≤ c.1 ∧ c.1 < a + n))

/-- The device with the `n` bytes at `src` copied to `dst`. -/
def Dev.copyMem (d : Dev) (src dst n : Nat) : Dev :=
  { d with mem := splice d.mem dst n ((d.cells src n).map (fun c => (c.1 - src + dst, c.2))) }

/-- A little-endian number of `n` bytes at `a`. -/
def Dev.rdNum (d : Dev) (a n : Nat) : Nat := ofLE (d.rdMem a n)

/-- The device with `v` written at `a` in `n` bytes, little-endian. -/
def Dev.wrNum (d : Dev) (a n v : Nat) : Dev := d.wrMem a (leBytes n v)

/-- The canonical form of home memory. -/
def memCanonical (m : List Host.Cell) : Bool := canonical (fun _ => (0 : Byte)) m

end Sys2Proof.Machine
end

