-- ==== Sys2Proof/Machine/ErrLog.lean ====
section
/-!
DEFINITION. The error log, ERR_STS and the poison marks (16 R621-R624, R633-R640), and the reports to Tally
(17 R652, R653).
-/

namespace Sys2Proof.Machine

/-- Sets a bit of ERR_STS; its change from 0 to 1 sends one notice (R639). -/
def Dev.setErrSts (d : Dev) (f : Fld) : Dev :=
  if d.rb f then d else (d.wb f 0 true).send (.notice f.info.lo)

/-- What an event supplies to its log entry (R635, R636); SEQ and GT are added when it is written. -/
structure Event where
  kind : Nat
  u : Bool
  aform : Nat := 3
  tag : Nat := 16
  uclass : Nat := 255
  unit : Nat := 0
  agent : Nat := 0xFFFF
  detail : Nat := 0
  addr : Nat := 0
deriving DecidableEq, Repr

/-- The live entry with the smallest age rank among those `p` selects: its slot. -/
def oldestEntry (next : Nat) (p : LogEnt → Bool) (log : Map LogEnt) : Option Nat :=
  (log.foldl (fun best e =>
    if p e.2 then
      match best with
      | none => some (e.1, subMod 32 next e.2.seq)
      | some (k, age) => if age < subMod 32 next e.2.seq then some (e.1, subMod 32 next e.2.seq) else some (k, age)
    else best) (none : Option (Nat × Nat))).map Prod.fst

/-- Writes one event to the log (R634). -/
def Dev.logEvent (d : Dev) (e : Event) : Dev :=
  let seq := d.rf .ERR_LOG_STS_NEXT_SEQ
  let ent : LogEnt :=
    { seq := seq, kind := e.kind, u := e.u, aform := e.aform, tag := e.tag, uclass := e.uclass, unit := e.unit,
      agent := e.agent, detail := e.detail % 2 ^ 32, addr := e.addr % 2 ^ 56, gt := d.gt }
  let d := d.inc .ERR_LOG_STS_NEXT_SEQ
  let free := freshKey d.err.log 0
  let slot := if free < 8192 then some free else oldestEntry seq (fun x => !x.u) d.err.log
  let d := match slot with
    | some k => { d with err.log := kput d.err.log k ent, err.tlm.logs := d.err.tlm.logs + 1 }
    | none => if e.u then (d.bump .ERR_LOST_COUNT).setErrSts .ERR_STS_LOST else d.bump .ERR_CNT_C_LOST
  if e.u && slot.isSome then d.setErrSts .ERR_STS_UE_NEW else d

/-! ### Tally -/

/-- Counts one event against a device for the present tick (17 R652). -/
def Dev.tally (d : Dev) (dev weight : Nat) : Dev :=
  { d with tlyEv := sput 0 d.tlyEv (dev * 8 + weight) (sget 0 d.tlyEv (dev * 8 + weight) + 1) }

/-- Reports an agent: a notice to the control node, no score (17 R653). -/
def Dev.reportAgent (d : Dev) (agent : Nat) : Dev := d.send (.report 1 agent)

/-- The device reached over a PEER port by its region 0 route (17 R652, R669), when there is one. -/
def Dev.peerOf (d : Dev) (port : Nat) : Option Nat :=
  (List.range 256).find? (fun n => d.rb .CMP_ROUTE_VALID (16 * n) && d.rf .CMP_ROUTE_PORT (16 * n) == port && n != d.devnum)

/-- A member that this device views as ABSENT or EXPELLED (17 R651, R659). -/
def Dev.gone (d : Dev) (n : Nat) : Bool :=
  n != d.devnum && bit (d.rf .TLY_PEERS_MEMBERS) n && (d.rf .TLY_DEV_STATE n == 0 || d.rf .TLY_DEV_STATE n == 3)

/-- Counts an event of a PEER port against the peer it routes to (17 R652). -/
def Dev.tallyPort (d : Dev) (port weight : Nat) : Dev :=
  if d.rb .HUB_FP_CFG_PEER port then
    match d.peerOf port with
    | some n => d.tally n weight
    | none => d
  else d

/-! ### Poison marks -/

/-- Extent number of a line. -/
def lineExt (line : Nat) : Nat := line / 2 ^ 22

/-- KIND of an extent by its number (02 R44). -/
def extKind (n : Nat) : ExtKind :=
  if n = 0 then .device
  else if n < 0x1000 then .t0
  else if n < 0x4000 then .none
  else if n < 0x8000 then .t1
  else if n < 0x10000 then .lent
  else if n < 0x20000 then .remote
  else .t2

/-- A side list covers the line (R623). -/
def sideHas (l : List SideEnt) (line : Nat) : Bool :=
  l.any (fun e => match e with
    | .line n => n == line
    | .ext n => n == lineExt line)

/-- A side list holds an entry for the whole extent. -/
def sideExt (l : List SideEnt) (ext : Nat) : Bool := l.contains (.ext ext)

/-- The line at local offset line * 64 is poisoned where it is stored (R622). -/
def Dev.poisoned (d : Dev) (line : Nat) : Bool :=
  match extKind (lineExt line) with
  | .t2 => sideHas d.err.t2side line
  | .lent => sideHas d.err.lentSide line
  | _ => sget false d.err.poison line

/-- How many line entries a side list holds for an extent. -/
def sideCount (l : List SideEnt) (ext : Nat) : Nat :=
  (l.filter (fun e => match e with | .line n => lineExt n == ext | .ext _ => false)).length

/-- Replaces every line entry of an extent with one extent entry (R623). -/
def sideFold (l : List SideEnt) (ext : Nat) : List SideEnt :=
  l.filter (fun e => match e with | .line n => lineExt n != ext | .ext n => n != ext) ++ [.ext ext]

/-- The extent with the most line entries, the lowest number on a tie (R623 step 2). -/
def sideMost (l : List SideEnt) : Option Nat :=
  let exts := l.filterMap (fun e => match e with | .line n => some (lineExt n) | .ext _ => none)
  exts.foldl (fun best e => match best with
    | none => some e
    | some b =>
      if sideCount l b < sideCount l e ∨ (sideCount l b = sideCount l e ∧ e < b) then some e else some b) none

/-- Marks a line in a side list of capacity `cap`: the new list, whether the list was full, whether the line's
extent must enter LOST (R623). -/
def sideMark (cap : Nat) (l : List SideEnt) (line : Nat) : List SideEnt × Bool × Bool :=
  let ext := lineExt line
  if sideHas l line then (l, false, false)
  else if l.length < cap then (l ++ [.line line], false, false)
  else if 0 < sideCount l ext then (sideFold l ext, true, false)
  else
    match sideMost l with
    | some e => if 2 ≤ sideCount l e then (sideFold l e ++ [.ext ext], true, false) else (l, true, true)
    | none => (l, true, true)

/-- The frames of an extent's pages are discarded (07 R267, R272). -/
def Dev.dropFrames (d : Dev) (n : Nat) : Dev :=
  { d with tier.promo := d.tier.promo.filter (fun e => e.2.page / 4096 != n),
           tier.stage := d.tier.stage.filter (fun e => e.2.page / 4096 != n) }

/-- Puts an extent into LOST: its frames go (R58, 07 R267). -/
def Dev.loseExt (d : Dev) (n : Nat) : Dev := { d with ext := kmod d.ext n (fun e => { e with st := .lost }) }.dropFrames n

/-- Marks a stored line poisoned (R619, R622, R623). -/
def Dev.poison (d : Dev) (line : Nat) : Dev :=
  match extKind (lineExt line) with
  | .t2 =>
    let (l, full, lost) := sideMark 131072 d.err.t2side line
    let d := { d with err.t2side := l }
    let d := if full then (d.setErrSts .ERR_STS_SIDE_FULL).logEvent { kind := 0x10, u := true, aform := 0, addr := d.devnum * 2 ^ 48 + line * 64, detail := 0 } else d
    if lost then d.loseExt (lineExt line) else d
  | .lent =>
    let (l, full, lost) := sideMark 65536 d.err.lentSide line
    let d := { d with err.lentSide := l }
    let d := if full then (d.setErrSts .ERR_STS_SIDE_FULL).logEvent { kind := 0x10, u := true, aform := 0, addr := d.devnum * 2 ^ 48 + line * 64, detail := 1 } else d
    if lost then d.loseExt (lineExt line) else d
  | _ => { d with err.poison := sput false d.err.poison line true }

/-- Clears the mark of one line, except where an extent entry holds it (R624). -/
def Dev.unpoison (d : Dev) (line : Nat) : Dev :=
  match extKind (lineExt line) with
  | .t2 => { d with err.t2side := d.err.t2side.filter (fun e => e != .line line) }
  | .lent => { d with err.lentSide := d.err.lentSide.filter (fun e => e != .line line) }
  | _ => { d with err.poison := sput false d.err.poison line false }

/-- Removes every side-list entry of an extent (R623). -/
def dropSide (l : List SideEnt) (ext : Nat) : List SideEnt :=
  l.filter (fun e => match e with | .line n => lineExt n != ext | .ext n => n != ext)

/-- Removes the marks of an extent: of T2 when it enters FREE or ABSENT, of LENT when it enters ABSENT or is
zeroed (R623). -/
def Dev.clearMarks (d : Dev) (ext : Nat) : Dev :=
  match extKind ext with
  | .t2 => { d with err.t2side := dropSide d.err.t2side ext }
  | .lent => { d with err.lentSide := dropSide d.err.lentSide ext }
  | _ => { d with err.poison := d.err.poison.filter (fun e => lineExt e.1 != ext) }

/-- Marks or clears a line according to `p`. -/
def Dev.setPoison (d : Dev) (line : Nat) (p : Bool) : Dev := if p then d.poison line else d.unpoison line

end Sys2Proof.Machine
end

