-- ==== Sys2Proof/Machine/Lines.lean ====
section
/-!
DEFINITION. Extents and lines at the home: placement, residence of T1 and T2 pages in frames, the line code, poison,
access counters (02 R44-R57, 07 R264-R272, 08 R328-R333, 16 R618-R624).
A line is named by local offset / 64, a page by local offset / 65,536, a block is 4 KiB.
-/

namespace Sys2Proof.Machine

/-- The extent table entry of an extent number (R56). -/
def Dev.extent (d : Dev) (n : Nat) : Ext :=
  sget { target := 0, port := 0, gen := 0, chamber := 0, st := .absent } d.ext n

/-- STATE as its code (R56). -/
def ExtState.code : ExtState → Nat
  | .absent => 0 | .free => 1 | .open_ => 2 | .immutable => 3 | .settling => 4 | .revoking => 5 | .lost => 6

/-- KIND as its code (R56). -/
def ExtKind.code : ExtKind → Nat
  | .device => 0 | .t0 => 1 | .t1 => 2 | .t2 => 3 | .lent => 4 | .remote => 5 | .none => 6

/-- Extents of the T0 striped zone (R47). -/
def Dev.stripedExts (d : Dev) : Nat := 3 * (1152 - d.rf .XLT_T0_CFG_AFF)

/-- The first extent of the promotion pool (07 R264). -/
def Dev.promoFirst (d : Dev) : Nat := d.stripedExts - d.rf .TIE_POOL_CFG_PROMO_EXT

/-- Extents of the staging pool: at most the backed T1 extents (07 R264). -/
def Dev.stageExts (d : Dev) : Nat :=
  if d.rb .XLT_T1_CFG_T1_OK then min (d.rf .TIE_POOL_CFG_STAGE_EXT) (d.rf .XLT_T1_CFG_T1_EXTENTS) else 0

/-- The first extent of the staging pool (07 R264). -/
def Dev.stageFirst (d : Dev) : Nat := 0x4000 + d.rf .XLT_T1_CFG_T1_EXTENTS - d.stageExts

/-- An extent of one of the frame pools: its entry reads ABSENT and it cannot be assigned (07 R264). -/
def Dev.inPool (d : Dev) (n : Nat) : Bool :=
  (decide (d.promoFirst ≤ n ∧ n < d.stripedExts) && d.rf .TIE_POOL_CFG_PROMO_EXT != 0) ||
  (decide (d.stageFirst ≤ n ∧ n < 0x4000 + d.rf .XLT_T1_CFG_T1_EXTENTS) && d.stageExts != 0)

/-- The slot that serves a logical position of T2, when one is SERVING or in TRANSFER as its source (R54, 07 R292). -/
def Dev.posSlot (d : Dev) (pos : Nat) : Option Nat :=
  (List.range 9).find? (fun k => (d.rf .TIE_CART_STS_STATE k == 3 || d.rf .TIE_CART_STS_STATE k == 4) &&
    d.rf .TIE_CART_STS_POS k == pos)

/-- The T2 position of an extent (R53). -/
def extPos (n : Nat) : Nat := (n - 0x20000) / 0x1C000

/-- The place of an extent in its T2 position. -/
def extInPos (n : Nat) : Nat := (n - 0x20000) % 0x1C000

/-- The slot whose cartridge holds a T2 extent: during a transfer the target once the extent has committed there (07 R292). -/
def Dev.extSlot (d : Dev) (n : Nat) : Option Nat :=
  match d.tier.xfer with
  | some x => if d.tier.moved.contains n then some x.t else d.posSlot (extPos n)
  | none => d.posSlot (extPos n)

/-- Backing exists for an extent of T0, T1 or T2 (R44, R50, R55). -/
def Dev.backed (d : Dev) (n : Nat) : Bool :=
  match extKind n with
  | .t0 => decide (n < 3456)
  | .t1 => d.rb .XLT_T1_CFG_T1_OK && decide (n < 0x4000 + d.rf .XLT_T1_CFG_T1_EXTENTS)
  | .t2 => match d.posSlot (extPos n) with
    | some k => match kget d.tier.carts k with
      | some ct => decide (extInPos n < ct.capacity / 2 ^ 28)
      | none => false
    | none => false
  | _ => false

/-- Where a local offset lies in T0: stack, pseudo-channel, byte address within it (R46-R48). -/
structure T0Place where
  stack : Nat
  pc : Nat
  addr : Nat
deriving DecidableEq, Repr

/-- The T0 placement of a local offset (R46-R48). -/
def t0Place (aff seed o : Nat) : T0Place :=
  let striped := 3 * (1152 - aff) * 4096
  let q := o / 65536
  let r := o / 256 % 256
  let g := if q < striped then q % 3 else (q - striped) / (aff * 4096)
  let u := if q < striped then q / 3 else (1152 - aff) * 4096 + (q - striped) % (aff * 4096)
  let f := Nat.xor (Nat.xor (Nat.xor (u % 256) (u / 256 % 256)) (u / 65536 % 128)) seed
  let p := Nat.xor r f
  let m := p / 64
  { stack := if m < 2 then 2 * g + m else 2 * g + m + 4, pc := p % 64, addr := u * 256 + o % 256 }

/-- Where an offset from the first T1 extent lies: channel, byte address within the channel (R52). -/
def t1Place (o : Nat) : Nat × Nat := (o / 4096 % 16, o / 65536 * 4096 + o % 4096)

/-- The unit index logged for a memory error: stack of a T0 line, channel of a T1 line (R48, R52). -/
def Dev.memUnit (d : Dev) (line : Nat) : Nat :=
  match extKind (lineExt line) with
  | .t1 => (t1Place ((line - 0x4000 * 2 ^ 22) * 64)).1
  | .t2 => extPos (lineExt line)
  | _ => (t0Place (d.rf .XLT_T0_CFG_AFF) (d.rf .XLT_T0_CFG_SEED) (line * 64)).stack

/-! ### Residence -/

/-- The frame that holds a page. -/
def frameOf (m : Map Frame) (page : Nat) : Option (Nat × Frame) := m.find? (fun e => e.2.page == page)

/-- First line of promotion frame `f`. -/
def Dev.promoLine (d : Dev) (f : Nat) : Nat := d.promoFirst * 2 ^ 22 + f * 1024

/-- First line of staging frame `f`. -/
def Dev.stageLine (d : Dev) (f : Nat) : Nat := d.stageFirst * 2 ^ 22 + f * 1024

/-- The frame holds the 4 KiB block of the line (R265). -/
def frameHas (fr : Frame) (line : Nat) : Bool := bit fr.valid (line / 64 % 16)

/-- Where the current bytes of a line are stored: a promotion frame, a staging frame or its own place (R262, R268). -/
def Dev.phys (d : Dev) (line : Nat) : Nat :=
  match extKind (lineExt line) with
  | .t1 | .t2 =>
    match frameOf d.tier.promo (line / 1024) with
    | some (f, fr) => if frameHas fr line then d.promoLine f + line % 1024 else
      match frameOf d.tier.stage (line / 1024) with
      | some (g, gr) => if frameHas gr line then d.stageLine g + line % 1024 else line
      | none => line
    | none =>
      match frameOf d.tier.stage (line / 1024) with
      | some (g, gr) => if frameHas gr line then d.stageLine g + line % 1024 else line
      | none => line
  | _ => line

/-- The bytes at a stored line are under the key of the extent's owner, or not encrypted (15 R605, R606). -/
def Dev.keyMatches (d : Dev) (line phys : Nat) : Bool :=
  match extKind (lineExt line), extKind (lineExt phys) with
  | .t1, .t1 | .t2, .t1 | .t2, .t2 =>
    sget 0 d.extKey (lineExt line) == sget 0 d.chmKey (d.extent (lineExt line)).chamber
  | _, _ => true

/-- A line written back while its page's frame fills (07 R269, log 18). -/
def Dev.lateLine (d : Dev) (line : Nat) : Option (Bytes × Bool) :=
  match extKind (lineExt line) with
  | .t1 | .t2 => ((d.tier.promo ++ d.tier.stage).findSome? (fun e => (kget e.2.late line).map (fun x => (x.1, x.2.1))))
  | _ => none

/-- The plain bytes of a line as its owner reads them, and its poison mark. A poisoned line's bytes are free (R621). -/
def Dev.rdLine (d : Dev) (line : Nat) : Bytes × Bool :=
  match d.lateLine line with
  | some (b, p) => if p then (leBytes 64 (Config.poisonLine line (ofLE b)), true) else (b, false)
  | none =>
  let p := d.phys line
  let plain := d.rdMem (p * 64) 64
  if d.poisoned p then (leBytes 64 (Config.poisonLine line (ofLE plain)), true)
  else if d.keyMatches line p then (plain, false)
  else (leBytes 64 (Config.wrongKey (sget 0 d.extKey (lineExt line))
    (sget 0 d.chmKey (d.extent (lineExt line)).chamber) line (ofLE plain)), false)

/-- What the decoder makes of the stored line `p` with symbols `syms` in error: 0 clean, 1 corrected, 2 uncorrectable,
3 poisoned before. In three or more symbols, whether the error is detected is free (R618). -/
def Dev.decodeKind (d : Dev) (p : Nat) (syms : List (Fin 36)) : Nat :=
  if d.poisoned p then 3
  else match syms.eraseDups with
    | [] => 0
    | [_] => 1
    | [_, _] => 2
    | _ => if Config.detects d.fresh then 2 else 1

/-- Reads line `line`, stored at `p`, through the line decoder (R618, R619): a line in error in one symbol is rewritten
corrected and logged, in two is rewritten poisoned and logged; an error in three or more that is not detected is
rewritten to a free value. `tag` is the Chamber tag of the request. -/
def Dev.decodeAt (d : Dev) (line p : Nat) (syms : List (Fin 36)) (tag : Nat) (scrub : Bool) : Dev :=
  let n := d.fresh
  let many := decide (2 < syms.eraseDups.length)
  match d.decodeKind p syms with
  | 1 =>
    let d := if many then ((d.wrMem (p * 64) (leBytes 64 (Config.free n))).drawn).drawn else d
    let j := match syms with
      | [j] => j.val
      | j :: _ => if many then Config.free (n + 1) % 36 else j.val
      | [] => 0
    (d.bump .ERR_CNT_CE).logEvent
      { kind := 1, u := false, aform := 0, tag := tag, unit := d.memUnit p, detail := j,
        addr := d.devnum * 2 ^ 48 + line * 64 }
  | 2 =>
    let d := if many then d.drawn else d
    ((d.poison p).bump .ERR_CNT_UE).logEvent
      { kind := 2, u := true, aform := 0, tag := tag, unit := d.memUnit p, detail := b2n scrub,
        addr := d.devnum * 2 ^ 48 + line * 64 }
  | _ => d

/-- Reads a line where it is stored through the line decoder. -/
def Dev.decodeLine (d : Dev) (line : Nat) (syms : List (Fin 36)) (tag : Nat) (scrub : Bool) : Dev :=
  d.decodeAt line (d.phys line) syms tag scrub

/-- Writes the bytes that `mask` selects at a line where it is stored, with the poison rules of R624. A whole line
takes the mark `poison`; a part leaves the line's mark, or sets it when the write carries poison. -/
def Dev.wrLine (d : Dev) (line mask : Nat) (data : Bytes) (poison : Bool) : Dev :=
  let p := d.phys line
  let d' := d.wrMem (p * 64) (mergeMask mask (d.rdMem (p * 64) 64) (padTo 64 data))
  if mask % 2 ^ 64 = 2 ^ 64 - 1 then d'.setPoison p poison
  else if poison then d'.poison p else d'

/-- All 64 mask bits. -/
def fullMask : Nat := 2 ^ 64 - 1

/-- Telemetry's byte counts of tier accesses (16 R643). -/
def Dev.countBytes (d : Dev) (line n : Nat) (write : Bool) : Dev :=
  match extKind (lineExt (d.phys line)) with
  | .t1 => if write then d else { d with err.tlm.t1r := d.err.tlm.t1r + n }
  | .t0 | .device => if write then { d with err.tlm.t0w := d.err.tlm.t0w + n } else { d with err.tlm.t0r := d.err.tlm.t0r + n }
  | _ => d

/-! ### Routes and the extent check (02 R57, 17 R669) -/

/-- Where a pool address is served. -/
inductive Route where
  | bad
  | here
  | standin
  | away (port : Nat) (home : Nat)
deriving DecidableEq, Repr

/-- R669. -/
def Dev.route (d : Dev) (pa : Nat) : Route :=
  let k := pa / 2 ^ 44 % 4096
  if !d.rb .CMP_ROUTE_VALID k then .bad
  else if d.rf .CMP_ROUTE_HOME k == d.devnum then
    if d.rb .CMP_ROUTE_STANDIN k then .standin else .here
  else
    let p := d.rf .CMP_ROUTE_PORT k
    let q := if !d.rb .HUB_FP_STS_LINK_UP p && d.rb .CMP_ROUTE_ALT_EN k then d.rf .CMP_ROUTE_ALTPORT k else p
    .away q (d.rf .CMP_ROUTE_HOME k)

/-- What stage 4 says of an access (R57). -/
inductive Acc where
  | ok | check | wprot | lost | revoked | held
deriving DecidableEq, Repr

/-- The extent waits in SEAL or FREE: it is the one that the command in progress has reached (R60, R757). -/
def Dev.extHeld (d : Dev) (n : Nat) : Bool :=
  match d.extCmd with
  | some k => (k.op == 2 || k.op == 3) && n == k.first + k.done
  | none => false

/-- The extent is LOST, or its backing has failed while FREE waits for what was admitted before it (R57, R59). -/
def Dev.extDead (d : Dev) (n : Nat) : Bool :=
  (d.extent n).st == .lost || (match d.extCmd with | some k => k.lost && n == k.first + k.done | none => false)

/-- The device with an extent's entry replaced. -/
def Dev.setExt (d : Dev) (n : Nat) (e : Ext) : Dev :=
  { d with ext := sput { target := 0, port := 0, gen := 0, chamber := 0, st := .absent } d.ext n e }

/-- An extent enters FREE: GEN rises, and its pages' access counters are 0 (02 R56, 08 R328). -/
def Dev.enterFree (d : Dev) (n : Nat) : Dev :=
  let e := d.extent n
  { d.setExt n { e with st := .free, gen := (e.gen + 1) % 256 } with
      xlt.acnt := d.xlt.acnt.filter (fun x => x.1 / 4096 != n), xlt.asrc := d.xlt.asrc.filter (fun x => x.1 / 4096 != n) }

/-- The extent is the source of a settle in progress: one that waits for its journal slot, or that has one until its completion record is
written (R61, 07 R272, R283). -/
def Dev.settleSource (d : Dev) (n : Nat) : Bool :=
  d.tier.settles.any (fun e => e.2.src == n && !e.2.transfer) ||
    d.tier.waiting.any (fun id => match kget d.ops id with | some o => o.acc == n | none => false)

/-- The extent is the mirror side of an enabled Buttress pair (17 R665). -/
def Dev.isMirror (d : Dev) (n : Nat) : Bool :=
  (List.range 64).any (fun k => d.rb .CMP_BUTTRESS_EN k && d.rb .CMP_BUTTRESS_ROLE k && d.rf .CMP_BUTTRESS_EXTENT k == n)

/-- The outcome of an access of Chamber `c` to an extent (R57, R60). `viaStandin` marks an access served for another
device from a mirror (17 R668). -/
def Dev.stage4 (d : Dev) (c n : Nat) (write : Bool) (viaStandin : Bool := false) : Acc :=
  let e := d.extent n
  if n = 0 then .check
  else if d.inPool n then .check
  else if d.isMirror n && !viaStandin then .check
  else if d.extHeld n then .held
  else match e.st with
    | .absent | .free | .settling => .check
    | .open_ => if e.chamber = c then .ok else .check
    | .immutable =>
      if e.chamber ≠ c then .check
      else if !write then .ok
      else match extKind n with
        | .t1 | .t2 => if d.settleSource n then .wprot else .ok
        | _ => .wprot
    | .revoking => if e.chamber = c then .revoked else .check
    | .lost => if e.chamber = c then .lost else .check

/-- Logs an access to a LOST extent (R57). -/
def Dev.logLost (d : Dev) (c line : Nat) (write : Bool) (agent : Nat := 0xFFFF) : Dev :=
  d.logEvent { kind := 0x0C, u := true, aform := 0, tag := c, agent := agent, detail := b2n write,
               addr := d.devnum * 2 ^ 48 + line * 64 }

/-- Counts and logs a failed Chamber check (06 R222, 16 R637). -/
def Dev.failCheck (d : Dev) (c aform addr detail : Nat) (agent : Nat := 0xFFFF) : Dev :=
  (d.bump .CHM_CHK_CNT_COUNT c).logEvent
    { kind := 8, u := false, aform := aform, tag := c, agent := agent, detail := detail, addr := addr }

/-! ### Buttress mirrors (17 R665, R666) -/

/-- The enabled primary entry in COPYING or SYNC that mirrors an extent. -/
def Dev.mirrorEntry (d : Dev) (n : Nat) : Option Nat :=
  (List.range 64).find? (fun k => d.rb .CMP_BUTTRESS_EN k && !d.rb .CMP_BUTTRESS_ROLE k &&
    d.rf .CMP_BUTTRESS_EXTENT k == n && (d.rf .CMP_BUTTRESS_STATE k == 1 || d.rf .CMP_BUTTRESS_STATE k == 2))

/-- A message from the home with every field 0 but those given (R143). -/
def homeMsg (op tc vc : Nat) : Msg :=
  { op := BitVec.ofNat 8 op, tc := BitVec.ofNat 3 tc, af := false, vc := BitVec.ofNat 2 vc, rsv := false, cls := false,
    chamber := 0, t0s := false, eng := false, status := 0, src := 0xFFFF, dst := 0xFFFF, tag := 0, xtag := 0, addr := 0,
    args := 0, data := [] }

/-- A request or a conversation of the device still uses the tag (04 R148). -/
def Dev.tagUsed (d : Dev) (t : Nat) : Bool :=
  d.coh.reqs.any (fun r => r.msg.src == 0xFFFF#16 && r.msg.tag.toNat == t) || d.coh.bmirs.any (fun b => b.tag == t) ||
    (kget d.tbl.pubs t).isSome || (kget d.tbl.moves t).isSome || (kget d.tbl.repls t).isSome

/-- A tag that the device does not use, from `nextTag` on (04 R148). -/
def Dev.freeTag (d : Dev) : Nat :=
  (((List.range (d.coh.reqs.length + d.coh.bmirs.length + d.tbl.pubs.length + d.tbl.moves.length + d.tbl.repls.length + 1)).map (fun k =>
    (d.coh.nextTag + k) % 2 ^ 20)).find? (fun t => !d.tagUsed t)).getD d.coh.nextTag

/-- A Buttress pair becomes BROKEN: logged, counted against the mirror's device, and told to the control node (17 R667). -/
def Dev.pairBroken (d : Dev) (k : Nat) : Dev :=
  let peer := d.rf .CMP_BUTTRESS_PEER k
  let d := d.wf .CMP_BUTTRESS_STATE k 3
  ((d.logEvent { kind := 5, u := true, aform := 0, tag := d.rf .CMP_BUTTRESS_CHAMBER k, detail := 0x66,
                 addr := d.devnum * 2 ^ 48 + d.rf .CMP_BUTTRESS_EXTENT k * 2 ^ 28 }).tally peer 2).send (.report 4 peer)

/-- Sends BMIR with the whole resulting line of a mirrored extent (R666). Toward a device that is gone it ends at once, and the pair is
BROKEN (R659, R667); with no route it is not sent, and runs into its timeout. BMIR carries no mark, so a poisoned line arrives as its
bytes are delivered (DESIGN CHOICE, log 161). -/
def Dev.mirror (d : Dev) (line : Nat) (why : ReqFor) : Dev :=
  match d.mirrorEntry (lineExt line) with
  | none => d
  | some k =>
    if d.gone (d.rf .CMP_BUTTRESS_PEER k) then d.pairBroken k else
    let b := sget 0 d.coh.bseq k
    let t := d.freeTag
    let pa := d.rf .CMP_BUTTRESS_PEER k * 2 ^ 48 + d.rf .CMP_BUTTRESS_PEER_EXT k * 2 ^ 28 + line * 64 % 2 ^ 28
    let m := { homeMsg 0x66 0 0 with
                 af := true, chamber := BitVec.ofNat 4 (d.rf .CMP_BUTTRESS_CHAMBER k), addr := BitVec.ofNat 56 pa,
                 tag := BitVec.ofNat 20 t, args := BitVec.ofNat 64 (b % 2 ^ 32 * 2 ^ 32), data := (d.rdLine line).1 }
    let sent := match d.route pa with | .away p _ => d.send (.msg p m) | _ => d
    { sent with
        coh.bseq := sput 0 d.coh.bseq k (u32 (b + 1)),
        coh.nextTag := (t + 1) % 2 ^ 20,
        coh.bmirs := d.coh.bmirs ++ [{ entry := k, bseq := b, why := why, tag := t }] }

/-- A write performed at the home for `why`: the line changes and its mirror, if any, is told (R186, R666). -/
def Dev.homeWrite (d : Dev) (line mask : Nat) (data : Bytes) (poison : Bool) (why : ReqFor) : Dev :=
  let d := (d.countBytes line 64 true).wrLine line mask data poison
  let p := d.phys line
  let d := if p = line then d else
    match frameOf d.tier.promo (line / 1024) with
    | some (f, fr) => { d with tier.promo := kput d.tier.promo f { fr with st := .written } }
    | none => d
  d.mirror line why

/-! ### Access counters and the hot-page ring (08 R328-R333) -/

/-- The device writes bytes of a line of a ring of its own (08 R316, R332, 12 R502). -/
def Dev.putRing (d : Dev) (at_ : Nat) (b : Bytes) : Dev :=
  d.homeWrite (at_ / 64) ((2 ^ b.length - 1) * 2 ^ (at_ % 64)) (zeros (at_ % 64) ++ b) false .none

/-- An agent holds the Held line, or it is BUSY: a write of it waits for the answers to its snoops (04 R152, R153). -/
def Dev.lineTaken (d : Dev) (line : Nat) : Bool :=
  (match kget d.coh.dir line with | some e => e.cls == .held | none => false) || (kget d.coh.txns line).isSome

/-- Work that must wait is kept, for the next turn of the service cores. -/
def Dev.later (d : Dev) (c : Nat) (b : Blk) (w : Svc) : Dev :=
  { d with svcs := kput d.svcs d.nextSvc { work := w, chamber := c, blk := b, ans := [] }, nextSvc := d.nextSvc + 1 }

/-- Where the next entry of a Chamber's hot-page ring goes, or of its hot-row ring (R332, 12 R502). -/
def Dev.hotAt (d : Dev) (c : Nat) (rows : Bool) : Nat :=
  if rows then d.rf .TBL_HOT_BASE_OFFSET c * 2 ^ 17 + d.rf .TBL_HOT_PTR_TAIL c % 4096 * 32
  else d.rf .XLT_HOT_BASE_OFFSET c * 2 ^ 18 + d.rf .XLT_HOT_PTR_TAIL c % 16384 * 16

/-- The ring has room for one more entry (R333, 12 R502). -/
def Dev.hotRoom (d : Dev) (c : Nat) (rows : Bool) : Bool :=
  if rows then decide (subMod 32 (d.rf .TBL_HOT_PTR_TAIL c) (d.rf .TBL_HOT_PTR_HEAD c) < 4096)
  else decide (subMod 32 (d.rf .XLT_HOT_PTR_TAIL c) (d.rf .XLT_HOT_PTR_HEAD c) < 16384)

/-- A device's write to a ring of the Chamber that stage 4 fails goes no further (01 R29-R31). -/
def Dev.ringFail (d : Dev) (c at_ : Nat) : Dev :=
  match d.stage4 c (at_ / 2 ^ 28) true with
  | .lost => d.logLost c (at_ / 64) true
  | _ => d.failCheck c 0 (d.devnum * 2 ^ 48 + at_) 0

/-- Writes an entry of such a ring and moves TAIL, or discards the entry of a full ring (R333, 12 R502). The write is an access of
the Chamber: where stage 4 fails it, it goes no further and TAIL stays (01 R29-R31). -/
def Dev.postNow (d : Dev) (c : Nat) (rows : Bool) (b : Bytes) : Dev :=
  let at_ := d.hotAt c rows
  if !d.hotRoom c rows then d.bump (if rows then .TBL_HOT_DROP_DROPS else .XLT_HOT_DROP_DROPS) c
  else match d.stage4 c (at_ / 2 ^ 28) true with
    | .ok => (d.putRing at_ b).inc (if rows then .TBL_HOT_PTR_TAIL else .XLT_HOT_PTR_TAIL) c
    | .held => d.later c (.held (at_ / 2 ^ 28)) (.post c rows b)
    | _ => d.ringFail c at_

/-- An entry for such a ring: written at once, or, where an agent holds its line, when that copy has gone (log 136). -/
def Dev.post (d : Dev) (c : Nat) (rows : Bool) (b : Bytes) : Dev :=
  let line := d.hotAt c rows / 64
  if d.lineTaken line then d.later c (.line line) (.post c rows b) else d.postNow c rows b

/-- Posts a page to the hot-page ring of its owner (R331-R333); while that ring is disabled nothing is posted, nor counted in XLT_HOT_DROP.
The page's access counter counts on (log 140). -/
def Dev.postHot (d : Dev) (page : Nat) : Dev :=
  let c := (d.extent (page / 4096)).chamber
  if d.rb .XLT_HOT_BASE_EN c then
    d.post c false (leBytes 8 (d.devnum * 2 ^ 48 + page * 65536 + sget 0 d.xlt.asrc page) ++ leBytes 4 d.stamp ++ zeros 4)
  else d

/-- Counts one request at a page from source `src`: 0 Mortar agents, 1 CXL hosts, 2 engines (R329). PAGE [2:0] of a posted entry names the
selected sources alone (DESIGN CHOICE, log 140). -/
def Dev.countAccess (d : Dev) (line src : Nat) : Dev :=
  let page := line / 1024
  let counted := match extKind (lineExt line) with | .t0 | .t1 => true | _ => false
  if counted && bit (d.rf .XLT_CNT_CFG_SRC) src then
    let old := sget 0 d.xlt.acnt page
    let new := satAdd 16 old 1
    let d := { d with xlt.acnt := sput 0 d.xlt.acnt page new,
                      xlt.asrc := sput 0 d.xlt.asrc page (sget 0 d.xlt.asrc page ||| 2 ^ src) }
    if old + 1 = d.rf .XLT_CNT_CFG_THRESH then d.postHot page else d
  else d

end Sys2Proof.Machine
end

