-- ==== Sys2Proof/Machine/Snoop.lean ====
section
/-!
DEFINITION. The directory: entries, snoops, BUSY lines, victims, and the answers and timeouts of snoops
(04 R149-R161, R172, R173).
-/

namespace Sys2Proof.Machine

/-- Port [7:4] of an agent id on its attach device (R131). -/
def agentPort (a : Nat) : Nat := a / 16 % 16

/-- Attach device [15:8] of an agent id (R131). -/
def agentDev (a : Nat) : Nat := a / 256 % 256

/-- The port on which messages for an agent leave: its own, or the PEER port toward its attach device (R134). -/
def Dev.portTo (d : Dev) (a : Nat) : Nat :=
  if agentDev a = d.devnum then agentPort a
  else match d.route (agentDev a * 2 ^ 48) with
    | .away p _ => p
    | _ => agentPort a

/-- The port is in CXL mode (03 R86). -/
def Dev.isCxl (d : Dev) (p : Nat) : Bool := d.rf .HUB_FP_CFG_MODE p == 2

/-- The port is in MORTAR mode (03 R86). -/
def Dev.isMortar (d : Dev) (p : Nat) : Bool := d.rf .HUB_FP_CFG_MODE p == 1

/-- The pool address of a local line. -/
def Dev.paOf (d : Dev) (line : Nat) : Nat := d.devnum * 2 ^ 48 + line * 64

/-- The directory slice of a line: PA [9:8] (R149). -/
def lineSlice (line : Nat) : Nat := line / 4 % 4

/-- The agents a directory entry may name (R149, R150). -/
def Dev.holdersOf (d : Dev) (e : DirEnt) : List Nat :=
  if e.coarse then d.coh.agents.filter (fun a => bit e.mask (a % 48)) else e.holders

/-- The holder is named by the entry, or falls in one of its groups. -/
def dirHolds (e : DirEnt) (a : Nat) : Bool := if e.coarse then bit e.mask (a % 48) else e.holders.contains a

/-- The entry with holder `a` added: exact up to three holders, coarse from the fourth on (R150). -/
def dirAdd (e : DirEnt) (a : Nat) : DirEnt :=
  if e.coarse then { e with mask := e.mask ||| 2 ^ (a % 48) }
  else if e.holders.contains a then e
  else if e.holders.length < 3 then { e with holders := e.holders ++ [a] }
  else { e with coarse := true, mask := maskOf ((a :: e.holders).map (fun h => h % 48)), holders := [] }

/-- Lines that a request covers (R145). -/
def msgLines (m : Msg) : Nat := if m.opc = 3 ∨ m.opc = 4 then m.args.toNat % 4 + 1 else 1

/-- The home holds a request of the agent for the line, admitted or ticketed and not finally answered (R155). -/
def Dev.pendingOf (d : Dev) (a line : Nat) : Bool :=
  let l := d.devnum * 2 ^ 42 + line
  d.coh.slots.any (fun e => e.2.msg.src.toNat == a && e.2.phase != .forward &&
    (decide (e.2.pa / 64 ≤ l ∧ l < e.2.pa / 64 + msgLines e.2.msg) ||
      e.2.spans.any (fun x => decide (x.1 / 64 ≤ l ∧ l < x.1 / 64 + x.2.1)))) ||
  d.coh.tickets.any (fun e => e.2.src == a && decide (e.2.line ≤ line ∧ line < e.2.line + e.2.n))

/-- The key of an agent's name for a pool line (log 110). -/
def nameKey (a paLine : Nat) : Nat := a * 2 ^ 50 + paLine

/-- AF, Chamber and address by which the agent knows the pool line: those of the request that gave it its copy; else the PA (log 110). -/
def Dev.nameOf (d : Dev) (a paLine : Nat) : Bool × Nat × Nat := (kget d.coh.names (nameKey a paLine)).getD (true, 0, paLine * 64)

/-- The pool line that the agent's CVA names among the copies given to it (log 110). -/
def Dev.lineNamed (d : Dev) (a c cva : Nat) : Option Nat :=
  (d.coh.names.find? (fun e => e.1 / 2 ^ 50 == a && e.2 == (false, c, cva / 64 * 64))).map (fun e => e.1 % 2 ^ 50)

/-- The agent is given a copy of a pool line under a name (log 110). -/
def Dev.giveName (d : Dev) (a paLine : Nat) (nm : Bool × Nat × Nat) : Dev :=
  { d with coh.names := kput (d.coh.names.filter (fun e => !(e.1 / 2 ^ 50 == a && e.2 == nm))) (nameKey a paLine) nm }

/-- Sends one Recall or Inval, or the CXL BISnp in its place (R144, R145, R178). -/
def Dev.sendSnoop (d : Dev) (line agent xtag : Nat) (isRecall toShared coarse : Bool) : Dev :=
  let p := d.portTo agent
  let nm := d.nameOf agent (d.paOf line / 64)
  if agentDev agent = d.devnum && d.isCxl p then
    d.send (.cxl p (if isRecall && toShared then .biSnpData else .biSnpInv) xtag nm.2.2 false [])
  else
    let pend := b2n (d.pendingOf agent line)
    let args := if isRecall then b2n toShared + 2 * pend else b2n coarse + 2 * pend
    d.send (.msg p { homeMsg (if isRecall then 0x20 else 0x21) 1 1 with
      af := nm.1, chamber := BitVec.ofNat 4 (if nm.1 then (d.extent (lineExt line)).chamber else nm.2.1), dst := BitVec.ofNat 16 agent, xtag := BitVec.ofNat 16 xtag,
      addr := BitVec.ofNat 56 nm.2.2, args := BitVec.ofNat 64 args })

/-- Opens a transaction on a line: a Recall to the owner or an Inval to every holder but `except`; the line becomes
BUSY (R152-R154). -/
def Dev.openTxn (d : Dev) (line : Nat) (why : TxnFor) (toShared : Bool) (except : Option Nat) : Dev :=
  match kget d.coh.dir line with
  | none => d
  | some e =>
    let targets := (d.holdersOf e).filter (fun a => some a != except)
    let isRecall := e.st == .he
    /- a coarse entry whose groups no listed agent falls in tracks no copy -/
    if targets.isEmpty && except.isNone then { d with coh.dir := kdel d.coh.dir line } else
    let step := fun (acc : Dev × List Snoop) a =>
      let x := acc.1.coh.nextXtag
      let d1 := { acc.1 with coh.nextXtag := (x + 1) % 2 ^ 16 }
      (d1.sendSnoop line a x isRecall toShared e.coarse,
        acc.2 ++ [{ agent := a, xtag := x, isRecall := isRecall, toShared := toShared, sent := d1.gt, crossed := false }])
    let (d, snoops) := targets.foldl step (d, [])
    { d with coh.txns := kput d.coh.txns line { why := why, open_ := snoops, kept := [], poisoned := false } }

/-- The directory entry once every snoop of a transaction is answered: what kept a shared copy, and the requester
that was not snooped (R150, R152). -/
def Dev.settleDir (d : Dev) (line : Nat) (t : Txn) (spared : Option Nat) : Dev :=
  match kget d.coh.dir line with
  | none => d
  | some e =>
    let left := t.kept ++ (if e.coarse then [] else
      match spared with | some a => if e.holders.contains a then [a] else [] | none => [])
    if left.isEmpty then { d with coh.dir := kdel d.coh.dir line }
    else
      let st := if e.st == .he then (if t.kept.isEmpty then .he else .hs) else e.st
      { d with coh.dir := kput d.coh.dir line { e with st := st, coarse := false, holders := left, mask := 0 } }

/-- The line is BUSY (R154). -/
def Dev.lineBusy (d : Dev) (line : Nat) : Bool := (kget d.coh.txns line).isSome

/-- The directory set of a pool address, one of the 131,072 of its slice (R149, log 10). -/
def dirSetOf (pa : Nat) : Nat := Config.dirSet (pa / 1024) % 131072

/-- Ways of the line's set in use: the entries of the same slice and set (R149). -/
def Dev.setEntries (d : Dev) (line : Nat) : List (Nat × DirEnt) :=
  d.coh.dir.filter (fun e => lineSlice e.1 == lineSlice line &&
    dirSetOf (d.paOf e.1) == dirSetOf (d.paOf line))

/-- The phase is one in which a tracker slot serves its lines. A write that waits for its page keeps other writes away, not reads
(R186, R188, 07 R269). -/
def Phase.serves (p : Phase) (write : Bool) : Bool :=
  match p with
  | .tier | .snoop | .lender | .mirror => true
  | .page _ => write
  | _ => false

/-- A tracker slot is serving the line (R186, R188): for a read, or a `write`. -/
def Dev.lineServing (d : Dev) (line : Nat) (write : Bool := true) : Bool :=
  d.coh.slots.any (fun e => e.2.pa / 2 ^ 48 == d.devnum && e.2.phase.serves write &&
    decide (e.2.pa % 2 ^ 48 / 64 ≤ line ∧ line ≤ e.2.pa % 2 ^ 48 / 64 +
      (if e.2.msg.op = 3#8 ∨ e.2.msg.op = 4#8 then e.2.msg.args.toNat % 4 else 0)))

/-- What a request that needs an entry finds in its set (R161). -/
inductive WayFound where
  | free
  | victim (line : Nat)
  /-- the entries that are not BUSY name lines in service, whose answers come first (R155) -/
  | wait (line : Nat)
  | allBusy
deriving DecidableEq, Repr

/-- A free way, or the least recently used entry that is not BUSY (R161). -/
def Dev.findWay (d : Dev) (line : Nat) : WayFound :=
  if (kget d.coh.dir line).isSome then .free
  else
    let set := d.setEntries line
    if set.length < 16 then .free
    else
      let idle := set.filter (fun e => !d.lineBusy e.1)
      match (idle.filter (fun e => !d.lineServing e.1)).foldl (fun (b : Option (Nat × DirEnt)) e => match b with
          | none => some e
          | some x => if e.2.used < x.2.used then some e else some x) none with
      | some e => .victim e.1
      | none => match idle with | e :: _ => .wait e.1 | [] => .allBusy

/-- The device's use counter raised: the order of use of entries, slots and cached data. -/
def Dev.tick (d : Dev) : Dev := { d with coh.clock := d.coh.clock + 1 }

/-- The line's entry with `q` added under STATE `st`, made when there is none. Giving a copy is the use by which the least recently used
entry is found (DESIGN CHOICE, log 141). -/
def Dev.dirGive (d : Dev) (line q : Nat) (cls : Cls) (st : DirState) : Dev :=
  let d := d.tick
  let e := match kget d.coh.dir line with
    | some e => { (if st == .he then { e with coarse := false, mask := 0, holders := [q] } else dirAdd e q) with
                    st := st, used := d.coh.clock }
    | none => { cls := cls, st := st, coarse := false, holders := [q], mask := 0, used := d.coh.clock }
  { d with coh.dir := kput d.coh.dir line e }

/-- Removes a holder at its Evict (R150, R152, R153). -/
def Dev.dirDrop (d : Dev) (line a : Nat) : Dev :=
  match kget d.coh.dir line with
  | none => d
  | some e =>
    if e.coarse then d
    else
      let left := e.holders.filter (fun h => h != a)
      if left.isEmpty then { d with coh.dir := kdel d.coh.dir line }
      else { d with coh.dir := kput d.coh.dir line { e with holders := left } }

end Sys2Proof.Machine
end

