-- ==== Sys2Proof/Machine/Xlate.lean ====
section
/-!
DEFINITION. Page tables, PTEs and the caches of translations; fault records (08 R301-R327).
-/

namespace Sys2Proof.Machine

/-- Bits of CVA below a leaf of the level (R301). -/
def leafShift (level : Nat) : Nat := if level = 0 then 16 else if level = 1 then 28 else 40

/-- Address of the PTE that translates `cva` in the node at `node` (R301). -/
def pteAddr (node level cva : Nat) : Nat := node + cva / 2 ^ leafShift level % 4096 * 8

/-- Fields of a PTE (R303). -/
def pteAddrField (pte : Nat) : Nat := bits pte 15 41 * 2 ^ 15
def pteV (pte : Nat) : Bool := bit pte 0
def pteLeaf (pte : Nat) : Bool := bit pte 1
def pteW (pte : Nat) : Bool := bit pte 2
def pteCls (pte : Nat) : Cls := if bit pte 3 then .sharedRead else .held
def pteT0s (pte : Nat) : Bool := bit pte 4

/-- What one PTE says (R304). -/
inductive WalkStep where
  | fault (kind : Nat)
  | next (node : Nat)
  | leaf
deriving DecidableEq, Repr

/-- R304 for the PTE read at a level; the node's own place is checked before it is read. -/
def walkStep (pte level : Nat) (write : Bool) : WalkStep :=
  if !pteV pte then .fault 1
  else if bits pte 5 10 ≠ 0 ∨ bits pte 56 2 ≠ 0 then .fault 3
  else if !pteLeaf pte then
    if level = 0 ∨ bits pte 2 3 ≠ 0 then .fault 3 else .next (pteAddrField pte)
  else if pteAddrField pte % 2 ^ leafShift level ≠ 0 then .fault 3
  else if write && !pteW pte then .fault 2
  else .leaf

/-- The pool address of `cva` under a leaf (R304). -/
def leafPa (pte level cva : Nat) : Nat := pteAddrField pte + cva % 2 ^ leafShift level

/-- A node is aligned and in T0, on whichever device (R302). -/
def nodeFit (node : Nat) : Bool := node % 2 ^ 15 == 0 && extKind (node / 2 ^ 28 % 2 ^ 20) == .t0

/-- A local node lies as R302 requires. -/
def Dev.nodeOk (d : Dev) (c node : Nat) : Bool :=
  let n := node / 2 ^ 28 % 2 ^ 20
  nodeFit node && (d.extent n).st == .open_ && (d.extent n).chamber == c

/-- XLT_CHM_ROOT as a pool address (R302). -/
def Dev.rootOf (d : Dev) (c : Nat) : Nat := d.rf .XLT_CHM_ROOT_ROOT c * 2 ^ 15

/-! ### Translation caches (R306, R307) -/

/-- The translation unit of a CVA (R307). -/
def xltUnit (c cva : Nat) : Nat := Nat.xor (cva / 65536 % 4) (c % 4)

/-- Ways of a set of cache `k`: TLB 8, walk cache 512, micro-TLB 256 (R306). -/
def tlbWays (k : Nat) : Nat := if k < 4 then 8 else if k < 8 then 512 else 256

/-- The set of an entry: one of the TLB's 1,024; the other caches are fully associative (R306). -/
def tlbSetOf (k : Nat) (e : TlbEnt) : Nat := if k < 4 then Config.tlbSet e.chamber e.level e.vpn % 1024 else 0

/-- The entry of a list that translates the CVA at leaf or pointer level. -/
def tlbHit (l : List TlbEnt) (c cva : Nat) : Option TlbEnt :=
  l.find? (fun e => e.chamber == c && e.vpn == cva / 2 ^ leafShift e.level)

/-- The entries of cache `k`. -/
def Dev.cache (d : Dev) (k : Nat) : List TlbEnt := sget [] d.xlt.tlb k

/-- An entry is used or filled: it stands first in cache `k`, and the least recently used leaves a full set (R306). -/
def Dev.fillCache (d : Dev) (k : Nat) (e : TlbEnt) : Dev :=
  let l := e :: (d.cache k).filter (fun x => x != e)
  let out := (l.filter (fun x => tlbSetOf k x == tlbSetOf k e)).drop (tlbWays k)
  { d with xlt.tlb := sput [] d.xlt.tlb k (l.filter (fun x => !out.contains x)) }

/-- A cached leaf for the CVA in the micro-TLB `mt` or the translation unit's TLB. -/
def Dev.tlbLookup (d : Dev) (mt : Option Nat) (c cva : Nat) : Option TlbEnt :=
  match mt.bind (fun k => tlbHit (d.cache (8 + k)) c cva) with
  | some e => some e
  | none => tlbHit (d.cache (xltUnit c cva)) c cva

/-- Caches a leaf found by a walk, or used from the TLB: a hit there fills the micro-TLB (R306, R308). -/
def Dev.tlbFill (d : Dev) (mt : Option Nat) (c cva level pte : Nat) : Dev :=
  let e : TlbEnt := { chamber := c, level := level, vpn := cva / 2 ^ leafShift level, pte := pte }
  let d := d.fillCache (xltUnit c cva) e
  match mt with
  | some k => d.fillCache (8 + k) e
  | none => d

/-- Caches a table pointer (R306). -/
def Dev.walkFill (d : Dev) (c cva level pte : Nat) : Dev :=
  d.fillCache (4 + xltUnit c cva) { chamber := c, level := level, vpn := cva / 2 ^ leafShift level, pte := pte }

/-- Where a walk of the CVA begins: the lowest level whose table pointer the walk cache holds, else the root. -/
def Dev.walkStart (d : Dev) (c cva : Nat) : Nat × Nat :=
  let l := d.cache (4 + xltUnit c cva)
  match l.find? (fun e => e.chamber == c && e.level == 1 && e.vpn == cva / 2 ^ 28) with
  | some e => (0, pteAddrField e.pte)
  | none => match l.find? (fun e => e.chamber == c && e.level == 2 && e.vpn == cva / 2 ^ 40) with
    | some e => (1, pteAddrField e.pte)
    | none => (2, d.rootOf c)

/-- An entry overlaps the pages [first, first + n) (R313). -/
def tlbOverlaps (e : TlbEnt) (c first n : Nat) (all : Bool) : Bool :=
  e.chamber == c && (all ||
    (let w := 2 ^ (leafShift e.level - 16)
     decide (e.vpn * w < first + n ∧ first < (e.vpn + 1) * w)))

/-- Drops every translation of the Chamber that overlaps the pages (R313). -/
def Dev.dropXlt (d : Dev) (c first n : Nat) (all : Bool) : Dev :=
  let tlb := d.xlt.tlb.map (fun e => (e.1, e.2.filter (fun x => !tlbOverlaps x c first n all)))
  { d with xlt.tlb := tlb.filter (fun e => e.2 != []) }

/-! ### Fault records (R316-R323) -/

/-- The key of a page's record: Chamber and CVA [51:16]. -/
def recKey (c page : Nat) : Nat := c * 2 ^ 36 + page

/-- The Chamber's records that are open, delivered or not. -/
def Dev.recsOf (d : Dev) (c : Nat) : List (Nat × FRec) := d.xlt.recs.filter (fun e => e.1 / 2 ^ 36 == c)

/-- The record's batch has been delivered (R320). -/
def Dev.recDelivered (d : Dev) (c : Nat) (r : FRec) : Bool :=
  match r.batch with
  | some b => !serialAfter 32 b (d.rf .XLT_FQ_SEQ_DELIVERED c)
  | none => false

/-- A record can be opened for a new page (R322). -/
def Dev.recRoom (d : Dev) (c : Nat) : Bool :=
  let open_ := (d.recsOf c).filter (fun e => !d.recDelivered c e.2)
  decide (open_.length < 512 ∧
    subMod 32 (d.rf .XLT_FQ_PTR_TAIL c) (d.rf .XLT_FQ_PTR_HEAD c) + open_.length < 4096)

/-- The page has a record that is not resumed. -/
def Dev.hasRec (d : Dev) (c page : Nat) : Bool := (kget d.xlt.recs (recKey c page)).isSome

/-- The records of a closed batch, in the order in which they opened (R320). -/
def Dev.batchRecs (d : Dev) (c b : Nat) : List (Nat × FRec) :=
  ((d.recsOf c).filter (fun e => e.2.batch == some b)).mergeSort (fun a b => decide (a.2.seq ≤ b.2.seq))

/-- Where the record numbered `t` lies in the fault queue (R316). -/
def Dev.recAt (d : Dev) (c t : Nat) : Nat := d.rf .XLT_FQ_BASE_OFFSET c * 2 ^ 17 + t % 4096 * 32

/-- The lines that a closed batch writes, when it is the next. -/
def Dev.batchLines (d : Dev) (c b : Nat) : List Nat :=
  ((List.range (d.batchRecs c b).length).map (fun i => d.recAt c (d.rf .XLT_FQ_PTR_TAIL c + i) / 64)).eraseDups

/-- The bytes of a fault record (R317): `t` counts the records before it, `last` marks the batch's final one. -/
def recordBytes (t b page : Nat) (r : FRec) (last : Bool) : Bytes :=
  leBytes 1 r.kind ++ leBytes 1 (b2n (t / 4096 % 2 == 0) + 2 * b2n last + 4 * b2n r.w + 16 * r.level) ++
    leBytes 2 (min r.waiters 65535) ++ leBytes 4 b ++ leBytes 8 (page * 65536) ++ leBytes 16 r.reqmap

/-- A closed batch is written to the fault queue, TAIL and DELIVERED advance, and it is signalled (R320, R321). -/
def Dev.batchWrite (d : Dev) (c b : Nat) : Dev :=
  let go := d.batchRecs c b
  let put := fun (acc : Dev × Nat) (e : Nat × FRec) =>
    let t := acc.1.rf .XLT_FQ_PTR_TAIL c
    let at_ := acc.1.recAt c t
    let d := if acc.1.stage4 c (at_ / 2 ^ 28) true = .ok then
        acc.1.putRing at_ (recordBytes t b (e.1 % 2 ^ 36) e.2 (acc.2 + 1 == go.length))
      else acc.1.ringFail c at_
    (d.inc .XLT_FQ_PTR_TAIL c, acc.2 + 1)
  let d := (go.foldl put (d, 0)).1
  let d := (d.wf .XLT_FQ_SEQ_DELIVERED c b).bump .XLT_FLT_CNT_RECORDS c go.length
  let tgt := d.rf .XLT_FQ_SIG_TARGET c
  match d.rf .XLT_FQ_SIG_MODE c with
  | 1 => d.send (.msg (d.portTo tgt) { homeMsg 0x4A 3 2 with
      chamber := BitVec.ofNat 4 c, dst := BitVec.ofNat 16 tgt, args := BitVec.ofNat 64 (b * 2 ^ 32) })
  | 2 => d.send (.msix (tgt / 256 % 16) (tgt % 256))
  | 3 => d.send (.control c 64 b)
  | _ => d

/-- The Chamber's batches that are closed and not yet written. -/
def Dev.batchesOut (d : Dev) (c : Nat) : Nat :=
  d.svcs.countP (fun e => match e.2.work with | .batch k _ => k == c | _ => false)

/-- Closes the open batch (R320), with no more records than the queue has room for: it takes its number, and is written at once, or,
where an agent holds a line of it or an earlier batch waits, when they have gone (log 136). Records left over begin the next batch (R337). -/
def Dev.closeBatch (d : Dev) (c : Nat) : Dev :=
  let closed := ((d.recsOf c).filter (fun e => e.2.batch.isSome && !d.recDelivered c e.2)).length
  let room := 4096 - subMod 32 (d.rf .XLT_FQ_PTR_TAIL c) (d.rf .XLT_FQ_PTR_HEAD c) - closed
  let waiting := ((d.recsOf c).filter (fun e => e.2.batch.isNone)).mergeSort (fun a b => decide (a.2.seq ≤ b.2.seq))
  let go := waiting.take room
  if go.isEmpty then d
  else
    let b := u32 (d.rf .XLT_FQ_SEQ_DELIVERED c + d.batchesOut c + 1)
    let d := { d with xlt.recs := go.foldl (fun m (e : Nat × FRec) => kput m e.1 { e.2 with batch := some b }) d.xlt.recs,
                      xlt.fqCount := kput d.xlt.fqCount c (d.rf .XLT_FQ_CFG_COUNT c) }
    let ls := d.batchLines c b
    if d.batchesOut c == 0 && !ls.any (fun l => d.lineTaken l) then d.batchWrite c b
    else d.later c (.line (ls.headD 0)) (.batch c b)

/-- COUNT of the open batch, which has `n` records now: as it stood when the first was opened (R337). -/
def Dev.batchCount (d : Dev) (c n : Nat) : Nat := if n = 1 then d.rf .XLT_FQ_CFG_COUNT c else sget 0 d.xlt.fqCount c

/-- An access faults on a page: it joins the page's record, or opens one and closes the batch when it is full, or
stalls (R319, R320, R322). A batch keeps the COUNT with which it began (R337). `bit` is the requester's REQMAP bit (R317). -/
def Dev.fault (d : Dev) (c page kind level bit_ : Nat) (w : Bool) : Dev :=
  match kget d.xlt.recs (recKey c page) with
  | some r =>
    if d.recDelivered c r then d.bump .XLT_FLT_CNT_JOINED c
    else { d with xlt.recs := kput d.xlt.recs (recKey c page)
                    { r with waiters := min (r.waiters + 1) 65535, reqmap := r.reqmap ||| 2 ^ bit_, w := r.w || w } }
  | none =>
    if d.recRoom c then
      let d := d.tick
      let d := { d with xlt.recs := kput d.xlt.recs (recKey c page)
                          { kind := kind, level := level, w := w, waiters := 1, reqmap := 2 ^ bit_, opened := d.gt,
                            seq := d.coh.clock, batch := none } }
      let n : Nat := ((d.recsOf c).filter (fun e => e.2.batch.isNone)).length
      let cnt := d.batchCount c n
      let d := { d with xlt.fqCount := kput d.xlt.fqCount c cnt }
      if cnt ≤ n then d.closeBatch c else d
    else d.bump .XLT_FLT_STALL_STALLS c

/-- Logs a poisoned PTE (16 R625, R636). -/
def Dev.logPtePoison (d : Dev) (c pa level : Nat) : Dev :=
  d.logEvent { kind := 0x13, u := true, aform := 0, tag := c, detail := level, addr := pa }

end Sys2Proof.Machine
end

