-- ==== Sys2Proof/Machine/Frames.lean ====
section
/-!
DEFINITION. The frame pools: taking a frame, starting a staging or promotion, ending it, and what an access to a
T1 or T2 page must wait for (07 R264-R273, R280, R287).
-/

namespace Sys2Proof.Machine

/-- Which pool. -/
inductive Pool where
  | promo | stage
deriving DecidableEq, Repr

/-- The frames of a pool that are not FREE. -/
def Dev.pool (d : Dev) : Pool → Map Frame
  | .promo => d.tier.promo
  | .stage => d.tier.stage

/-- The device with a pool replaced. -/
def Dev.setPool (d : Dev) (p : Pool) (m : Map Frame) : Dev :=
  match p with
  | .promo => { d with tier.promo := m }
  | .stage => { d with tier.stage := m }

/-- Frames of a pool (R264). -/
def Dev.poolSize (d : Dev) : Pool → Nat
  | .promo => d.rf .TIE_POOL_CFG_PROMO_EXT * 4096
  | .stage => d.stageExts * 4096

/-- A Chamber's maximum frames of a pool (R294). -/
def Dev.poolMax (d : Dev) (p : Pool) (c : Nat) : Nat :=
  min (d.poolSize p) (4096 * (match p with
    | .promo => d.rf .TIE_CHM_QUOTA_PMAX c
    | .stage => d.rf .TIE_CHM_QUOTA_SMAX c))

/-- A Chamber's minimum frames of a pool (R294). -/
def Dev.poolMin (d : Dev) (p : Pool) (c : Nat) : Nat :=
  4096 * (match p with | .promo => d.rf .TIE_CHM_QUOTA_PMIN c | .stage => d.rf .TIE_CHM_QUOTA_SMIN c)

/-- Frames of a pool charged to a Chamber. -/
def Dev.poolUsed (d : Dev) (p : Pool) (c : Nat) : Nat := ((d.pool p).filter (fun e => e.2.chamber == c)).length

/-- Free frames that the other Chambers' minimums still claim. -/
def Dev.poolClaimed (d : Dev) (p : Pool) (c : Nat) : Nat :=
  ((List.range 16).map (fun i => if i = c then 0 else d.poolMin p i - d.poolUsed p i)).sum

/-- The frame a Chamber takes: a FREE one, else its own CLEAN frame filled longest ago; none when the pool is short (R266). -/
def Dev.takeFrame (d : Dev) (p : Pool) (c : Nat) : Option Nat :=
  let free := d.poolSize p - (d.pool p).length
  if d.poolUsed p c < d.poolMax p c ∧ d.poolClaimed p c < free then some (freshKey (d.pool p) 0)
  else
    ((d.pool p).foldl (fun (b : Option (Nat × Frame)) e =>
      if e.2.chamber == c && e.2.st == .clean then
        match b with
        | none => some e
        | some x => if e.2.seq < x.2.seq then some e else some x
      else b) none).map Prod.fst

/-- Bits of the blocks of `want` that page `pg` must read from its cartridge. -/
def Dev.fromCart (d : Dev) (pg want : Nat) : Bool :=
  extKind (pg / 4096) == .t2 &&
    (List.range 16).any (fun b => bit want b && d.phys (pg * 1024 + b * 64) == pg * 1024 + b * 64)

/-- Runs of consecutive numbers in a rising list. -/
def runsOf : List Nat → List (List Nat)
  | [] => []
  | a :: l => match runsOf l with
    | [] => [[a]]
    | r :: rs => if r.head? = some (a + 1) then (a :: r) :: rs else [a] :: r :: rs

/-- Sends an NVMe command to a cartridge, which must complete it within TIE_CART_TMO (R288, R291); its number. -/
def Dev.nvmeCmd (d : Dev) (k op lba n : Nat) (fua : Bool) (what : CmdFor) : Dev × Option Nat :=
  match kget d.tier.carts k with
  | none => (d, none)
  | some ct =>
    let id := ct.nextCmd
    let d := { d with tier.carts := kput d.tier.carts k { ct with nextCmd := id + 1, cmds := kput ct.cmds id what } }
    (d.send (.nvme k id op lba n fua), some id)

/-- Sends NVMe reads of `blocks`, numbered from block `lba` of a cartridge, one for each run (07 R273, R288); the number of the last. -/
def Dev.nvmeReads (d : Dev) (k lba : Nat) (blocks : List Nat) (what : CmdFor) : Dev × Option Nat :=
  (runsOf blocks).foldl (fun acc r => acc.1.nvmeCmd k 2 (lba + r.headD 0) r.length false what) (d, none)

/-- The NVMe reads of the blocks of `want` that page `pg` must read from its cartridge. -/
def Dev.nvmeRead (d : Dev) (pg want : Nat) (what : CmdFor) : Dev × Option Nat :=
  match d.extSlot (pg / 4096) with
  | none => (d, none)
  | some k => d.nvmeReads k (extInPos (pg / 4096) * 65536 + pg % 4096 * 16)
      ((List.range 16).filter (fun b => bit want b && d.phys (pg * 1024 + b * 64) == pg * 1024 + b * 64)) what

/-- Starts copying blocks `want` of page `pg` into a frame of the pool for Chamber `c` (R268, R273): the frame in use
for the page, or a frame taken by R266. None when the pool is short. -/
def Dev.startFill (d : Dev) (p : Pool) (c pg want : Nat) (pin : Bool) : Option Dev :=
  match frameOf (d.pool p) pg with
  | some (f, fr) =>
    let (d, cmd) := if d.fromCart pg want then d.nvmeRead pg want (.fill pg) else (d, fr.cmd)
    some (d.setPool p (kput (d.pool p) f { fr with st := .filling, want := fr.want ||| want, cmd := cmd,
                                                   pin := fr.pin || pin || fr.st == .pinned }))
  | none =>
    match d.takeFrame p c with
    | none => none
    | some f =>
      let (d, cmd) := if d.fromCart pg want then d.nvmeRead pg want (.fill pg) else (d, none)
      let d := d.tick
      some (d.setPool p (kput (d.pool p) f
        { page := pg, st := .filling, valid := 0, want := want, chamber := c, seq := d.coh.clock, pin := pin, bad := 0,
          late := [], cmd := cmd }))

/-- Copies one line into a frame line with its mark: to T1 or T2 as it is stored, to T0 decrypted, which garbles it where the key does not
match (R263, R280). -/
def Dev.copyLine (d : Dev) (line dst : Nat) : Dev :=
  let p := d.phys line
  let d' := if extKind (lineExt dst) != .t0 || d.keyMatches line p then d.copyMem (p * 64) (dst * 64) 64 else d.wrMem (dst * 64) (d.rdLine line).1
  d'.setPoison dst (d.poisoned p)

/-- A line that an agent wrote back joins those which the copy of its page under way will be given when it ends (R269, log 18). -/
def Dev.addLate (d : Dev) (p : Pool) (line : Nat) (data : Bytes) (poison : Bool) (agent : Nat) : Dev :=
  d.setPool p ((d.pool p).map (fun e =>
    if e.2.page == line / 1024 then (e.1, { e.2 with late := kput e.2.late line (padTo 64 data, poison, agent) }) else e))

/-- A line written back finds no frame for its page: the data is lost, and logged as SHORT_DROP (R287, log 18). -/
def Dev.logShortDrop (d : Dev) (c line agent : Nat) : Dev :=
  d.logEvent { kind := 0x14, u := true, aform := 0, tag := c, agent := agent, detail := 9, addr := d.paOf line }

/-- Lines written back while a frame was filled are written: to a promotion frame at once; those of a staging frame when the promotion
that copies from it ends, or nowhere where the promotion pool is short (R269, R272, R287, log 18). -/
def Dev.lateDone (d : Dev) (p : Pool) (c pg : Nat) (late : List (Nat × Bytes × Bool × Nat)) : Dev :=
  if late.isEmpty then d
  else match p with
  | .promo => late.foldl (fun d x => d.homeWrite x.1 fullMask x.2.1 x.2.2.1 .none) d
  | .stage =>
    match d.startFill .promo c pg 0xFFFF false with
    | some d => late.foldl (fun d x => d.addLate .promo x.1 x.2.1 x.2.2.1 x.2.2.2) d
    | none => late.foldl (fun d x => d.logShortDrop c x.1 x.2.2.2) (d.bump .TIE_CNT_SHORT c)

/-- A staging or promotion copy ends: the wanted blocks are in the frame, those with a media error poisoned and logged;
the frame becomes CLEAN, or PINNED when a pin asked for it (R265, R272, R280). The page counts as staged or promoted once, with the
first blocks that its frame is given, by the pool of the frame (DESIGN CHOICE, log 139). -/
def Dev.fillDone (d : Dev) (p : Pool) (f bad : Nat) : Dev :=
  match kget (d.pool p) f with
  | none => d
  | some fr =>
    if fr.st ≠ .filling then d
    else
      let base := match p with | .promo => d.promoLine f | .stage => d.stageLine f
      let blocks := (List.range 16).filter (fun b => bit fr.want b)
      let d := blocks.foldl (fun d b =>
        (List.range 64).foldl (fun d i => d.copyLine (fr.page * 1024 + b * 64 + i) (base + b * 64 + i)) d) d
      let d := blocks.foldl (fun d b =>
        if bit (bad ||| fr.bad) b then
          let d := (List.range 64).foldl (fun d i => d.poison (base + b * 64 + i)) d
          d.logEvent { kind := 0x0A, u := true, aform := 0, tag := fr.chamber,
                       unit := (d.extSlot (fr.page / 4096)).getD 0,
                       addr := d.paOf (fr.page * 1024 + b * 64), detail := 0 }
        else d) d
      let d := d.tick
      let d := if fr.valid ≠ 0 then d else d.bump (match p with | .promo => .TIE_CNT_PROMOTE | .stage => .TIE_CNT_STAGE) fr.chamber
      let d := d.setPool p (kput (d.pool p) f
        { fr with st := if fr.pin then .pinned else .clean, valid := fr.valid ||| fr.want, want := 0, bad := 0, late := [],
                  cmd := none, seq := d.coh.clock })
      d.lateDone p fr.chamber fr.page fr.late

/-- What an access to a T1 or T2 page finds at stage 6. -/
inductive TierGo where
  | ready
  | unstaged
  | wait (pg : Nat)
  | short
deriving DecidableEq, Repr

/-- Stage 6 for an access of Chamber `c` to a line; `want` are the 4 KiB blocks that a read needs (R268-R273, R287). A read whose own pool
is short, the promotion pool for T0STAGE = 1, is read unstaged; the other pool is not tried and SHORT does not count (DESIGN CHOICE,
log 139). -/
def Dev.tierGo (d : Dev) (c line : Nat) (write t0s : Bool) (want : Nat) : Dev × TierGo :=
  let pg := line / 1024
  let promote (d : Dev) : Dev × TierGo :=
    match frameOf d.tier.promo pg with
    | some (_, fr) =>
      if fr.st = .filling then
        match d.startFill .promo c pg (0xFFFF - fr.valid - fr.want % 0x10000) false with
        | some d => (d, .wait pg)
        | none => (d, .wait pg)
      else if fr.valid % 0x10000 = 0xFFFF then (d, .ready)
      else match d.startFill .promo c pg (0xFFFF - fr.valid) false with
        | some d => (d, .wait pg)
        | none => (d, .short)
    | none => match d.startFill .promo c pg 0xFFFF false with
      | some d => (d, .wait pg)
      | none => (d.bump .TIE_CNT_SHORT c, .short)
  match extKind (lineExt line) with
  | .t1 => if write then promote d else (d, .ready)
  | .t2 =>
    if write then
      match frameOf d.tier.stage pg with
      | some (_, fr) => if fr.st = .filling then (d, .wait pg) else promote d
      | none => promote d
    else if d.phys line ≠ line then (d, .ready)
    else
      /- a frame that the page has is the one filled (R270, R273) -/
      let p : Pool := if (frameOf d.tier.promo pg).isSome then .promo
        else if (frameOf d.tier.stage pg).isSome then .stage else if t0s then .promo else .stage
      match frameOf (d.pool p) pg with
      | some (_, fr) =>
        if fr.st = .filling && bit fr.want (line / 64 % 16) then (d, .wait pg)
        else match d.startFill p c pg want false with
          | some d => (d, .wait pg)
          | none => (d.bump .TIE_CNT_UNSTAGED c, .unstaged)
      | none => match d.startFill p c pg want false with
        | some d => (d, .wait pg)
        | none => (d.bump .TIE_CNT_UNSTAGED c, .unstaged)
  | _ => (d, .ready)

/-- The unstaged read of a line's block for the requester has not been answered. -/
def Dev.unstagedOut (d : Dev) (why : ReqFor) (line : Nat) : Bool :=
  d.tier.carts.any (fun e => e.2.cmds.any (fun x => x.2 == .unstaged why (line / 64)))

/-- The unstaged read of a line's block goes to its cartridge, unless it is out already (R287). -/
def Dev.unstagedRead (d : Dev) (why : ReqFor) (line : Nat) : Dev :=
  if d.unstagedOut why line then d else (d.nvmeRead (line / 1024) (2 ^ (line / 64 % 16)) (.unstaged why (line / 64))).1

/-- The number under which the answer to the unstaged read of a line's block is kept: that of no pool line. -/
def unstagedKey (line : Nat) : Nat := 2 ^ 51 + line / 64

/-- The page is being staged or promoted. -/
def Dev.pageFilling (d : Dev) (pg : Nat) : Bool :=
  (match frameOf d.tier.promo pg with | some (_, fr) => fr.st == .filling | none => false) ||
  (match frameOf d.tier.stage pg with | some (_, fr) => fr.st == .filling | none => false)

end Sys2Proof.Machine
end

