-- ==== Sys2Proof/Machine/Doorbell.lean ====
section
/-!
DEFINITION. Rings beside their registers, and the two ways to write a doorbell (06 R235, R236, R258).
-/

namespace Sys2Proof.Machine

/-- The state of a ring beside its registers. -/
def Dev.ring (d : Dev) (i : Nat) : Ring :=
  sget { tail := 0, admitted := 0, written := 0, unsig := 0, oldest := 0 } d.rings i

/-- The device with a ring's state replaced. -/
def Dev.setRing (d : Dev) (i : Nat) (r : Ring) : Dev := { d with rings := kput d.rings i r }

/-- A doorbell write of TAIL (R236). -/
def Dev.doorbell (d : Dev) (c r tail : Nat) : Dev :=
  let i := ringIx c r
  let s := d.ring i
  let st := d.rf .CHM_RING_STS_STATE i
  let k := d.rf .CHM_RING_CFG_SIZE_LOG2 i
  let ahead := subMod 32 tail (d.rf .CHM_RING_CHD_CHEAD i)
  if st = 0 ∨ st = 2 ∨ d.chmState c ≠ 1 ∨ serialAfter 32 s.tail tail = true ∨ 2 ^ k < ahead then
    d.bump .CHM_RING_STS_DB_ERR i
  else d.setRing i { s with tail := u32 tail }

/-- A write of the completion head (R258). -/
def Dev.setChead (d : Dev) (c r v : Nat) : Dev := d.wf .CHM_RING_CHD_CHEAD (ringIx c r) v

/-- A write of `mask` bytes at byte `off` of the doorbell page (R235): the whole 4-byte fields it covers, in order. -/
def Dev.doorbellPage (d : Dev) (c off mask : Nat) (data : Bytes) : Dev :=
  let r := off / 1024 % 64
  if off % 1024 ≠ 0 then d
  else
    let d := if mask % 16 = 15 then d.doorbell c r (field data 0 4) else d
    if mask / 256 % 16 = 15 then d.setChead c r (field data 8 4) else d

/-- The line read at byte `off` of the doorbell page (R235): CHM_RING_STS at offset 0 of a ring, 0 elsewhere. -/
def Dev.doorbellRead (d : Dev) (c off : Nat) : Bytes :=
  if off % 1024 ≠ 0 then zeros 64
  else
    let i := ringIx c (off / 1024 % 64)
    padTo 64 (leBytes 8 (d.rf .CHM_RING_STS_HEAD i * 2 ^ 32 + d.rf .CHM_RING_STS_INFLIGHT i * 2 ^ 16 +
      d.rf .CHM_RING_STS_DB_ERR i * 2 ^ 8 + d.rf .CHM_RING_STS_STATE i))

/-- The CVA lies in the Chamber's doorbell page (R235). -/
def Dev.inDbPage (d : Dev) (c cva : Nat) : Bool := d.chmDefined c && d.rf .CHM_CFG_DB_PAGE c == cva / 65536

end Sys2Proof.Machine
end

