-- ==== Sys2Proof/Machine/Engine.lean ====
section
/-!
DEFINITION. The accesses of the device's own engines to pool memory, along the path of R29: Chamber check, translation,
extent, directory, tier, or the lender, peer or gateway behind the address (01 R29-R31, 04 R135, 05 R186-R191,
08 R326, R327).
An engine's work runs inside one step. Where an access must wait, the work stops with the reason; the step then leaves
memory as it was, starts what the access waits for, and the work runs again from the same point once that has come (log 11).
-/

namespace Sys2Proof.Machine

/-- Who runs: Chamber, requester's REQMAP bit (08 R317), micro-TLB, NFZ, and for whom answers are kept. -/
structure Who where
  chamber : Nat
  rq : Nat
  mt : Option Nat
  nfz : Bool
  why : ReqFor
  /-- class of its reads: TC3 where a descriptor marks them latency, else TC4 (03 R116) -/
  tc : Nat := 4
deriving DecidableEq, Repr

/-- The device while an engine works, and what the work has counted: lines written, lines of unmapped parts, whether
poison was carried, whether an unstaged read was used. `ans` are external answers held, `seen` the lines written so far (06 R231),
`lost` says that the present page part has logged its LOST_ACCESS (02 R57), `passed` is the last access that passed stage 4:
extent, write (02 R59); `applied` says that an atomic has been performed (06 R228). `back` is the wait from which the work comes back (08 R322, R323), `tr` the leaf level and CVA of the last
translation (08 R313). -/
structure ES where
  d : Dev
  lines : Nat
  nfzLines : Nat
  poison : Bool
  unstaged : Bool
  ans : List Ans
  seen : List Nat
  lost : Bool
  passed : Option (Nat × Bool)
  applied : Bool
  back : Option Blk
  tr : Option (Nat × Nat)
deriving DecidableEq, Repr

/-- Why engine work cannot go on now: what it waits for, and the device with that started. -/
inductive Stop where
  | block (b : Blk) (start : Dev → Dev)
  | fail (status : Nat)

/-- Engine work. -/
abbrev Eng := ExceptT Stop (StateM ES)

/-- The device now. -/
def eGet : Eng Dev := do return (← get).d

/-- Changes the device. -/
def eMod (f : Dev → Dev) : Eng Unit := modify (fun s => { s with d := f s.d })

/-- Stops to wait. -/
def eBlock {α : Type} (b : Blk) (start : Dev → Dev) : Eng α := throw (.block b start)

/-- Ends with a status. -/
def eFail {α : Type} (status : Nat) : Eng α := throw (.fail status)

/-- A failed Chamber check of an engine: counted, logged, MALFORMED (06 R221, R222). -/
def eCheck {α : Type} (w : Who) (cva : Nat) : Eng α := do
  eMod (fun d => d.failCheck w.chamber 1 cva 0)
  eFail 0x7F

/-- Takes the first answer for a line, reading or writing; a later access of the line asks again. -/
def eAnswer (line : Nat) (write : Bool) : Eng (Option Ans) := do
  let s ← get
  match s.ans.find? (fun a => a.line == line && a.write == write) with
  | none => return none
  | some a =>
    set { s with ans := s.ans.erase a }
    return some a

/-- Lines written, by pool line number; each counts once (06 R231). -/
def eCount (ls : List Nat) : Eng Unit := modify (fun s =>
  let new := ls.filter (fun l => !s.seen.contains l)
  { s with lines := s.lines + new.length, seen := s.seen ++ new })

/-- An access to a LOST extent: logged once per page part of a range (02 R57). -/
def eLost (c line : Nat) (write : Bool) : Eng Unit := modify (fun s =>
  if s.lost then s else { s with lost := true, d := s.d.logLost c line write })

/-- The answers that a requester holds, changed. -/
def Dev.mapAns (d : Dev) (why : ReqFor) (f : List Ans → List Ans) : Dev :=
  match why with
  | .op id => { d with ops := kmod d.ops id (fun o => { o with ans := f o.ans }) }
  | .mason k => { d with masons := kmod d.masons (k / 4) (fun m =>
      { m with queues := kmod m.queues (k % 4) (fun q => match q with
          | b :: l => { b with ans := f b.ans } :: l
          | [] => []) }) }
  | .portal id => { d with net.reqs := kmod d.net.reqs id (fun p => { p with ans := f p.ans }) }
  | .svc n => { d with svcs := kmod d.svcs n (fun s => { s with ans := f s.ans }) }
  | .slot id => { d with coh.slots := kmod d.coh.slots id (fun sl => { sl with ans := f sl.ans }) }
  | _ => d

/-- An answer handed to a requester that waits for it. -/
def Dev.giveAns (d : Dev) (why : ReqFor) (a : List Ans) : Dev := d.mapAns why (fun l => l ++ a)

/-- The number under which the answer to a PTE read is kept: that of no pool line. -/
def pteKey (a : Nat) : Nat := 2 ^ 52 + a / 64

/-- The answer is a PTE, or says that a page is write-protected: a walk made again asks anew (08 R313, R323). -/
def Ans.ofWalk (a : Ans) : Bool := decide (2 ^ 52 ≤ a.line ∧ a.line < 2 ^ 60) || a.wprot

/-- A requester keeps no answer of a walk (08 R313, R323). -/
def Dev.dropPtes (d : Dev) (why : ReqFor) : Dev := d.mapAns why (fun l => l.filter (fun a => !a.ofWalk))

/-- A request of the device toward a peer or lender, with the next tag (R134, R174); `tr` is the translation by which it is made. -/
def Dev.askOut (d : Dev) (port : Nat) (m : Msg) (why : ReqFor) (line : Nat) (tr : Option (Nat × Nat) := none) : Dev :=
  let t := d.freeTag
  let m := { m with tag := BitVec.ofNat 20 t, src := 0xFFFF }
  { d.send (.msg port m) with
      coh.nextTag := (t + 1) % 2 ^ 20,
      coh.reqs := d.coh.reqs ++ [{ port := port, msg := m, why := why, line := line, reroutes := 0, tr := tr }] }

/-- A request is already out for the same requester, line and direction. -/
def Dev.asked (d : Dev) (why : ReqFor) (line : Nat) : Bool :=
  d.coh.reqs.any (fun r => r.why == why && r.line == line)

/-- Waits for an answer of `port` to `m`. -/
def eAsk {α : Type} (w : Who) (port : Nat) (m : Msg) (line : Nat) : Eng α := do
  let tr := (← get).tr
  eBlock (.answer line) (fun d => if d.asked w.why line then d else d.askOut port m w.why line tr)

/-- A request message of the device (R143, R145). -/
def reqMsg (op tc : Nat) (af : Bool) (c addr args : Nat) (data : Bytes) : Msg :=
  { homeMsg op tc 0 with af := af, chamber := BitVec.ofNat 4 c, addr := BitVec.ofNat 56 addr,
                         args := BitVec.ofNat 64 args, data := data }

/-- The status that an answer's STATUS gives an engine operation. -/
def ansFail (a : Ans) : Option Nat := if a.status = 0 then none else some a.status

/-! ### Translation -/

/-- A line recalled or invalidated for an engine; the engine waits (R135, R152, R154). -/
def eSnoop {α : Type} (line : Nat) (toShared : Bool) : Eng α :=
  eBlock (.line line) (fun d => if d.lineBusy line then d else d.openTxn line .engine toShared none)

/-- The requester still waits: its operation, brick or Portal request has not ended. -/
def Dev.waitLive (d : Dev) : ReqFor → Bool
  | .op id => (kget d.ops id).isSome
  | .mason k => match kget d.masons (k / 4) with
    | some m => match sget [] m.queues (k % 4) with | q :: _ => !q.done | [] => false
    | none => false
  | .portal id => (kget d.net.reqs id).isSome
  | .svc n => (kget d.svcs n).isSome
  | _ => false

/-- The engine's place among those that wait for the line, when it has one (R154). -/
def Dev.placeOf (d : Dev) (why : ReqFor) (line : Nat) : Option Nat :=
  (d.coh.waits.find? (fun x => x.1 == why && x.2.1 == line)).map (fun x => x.2.2)

/-- An engine that came before place `seq` waits for the line (R154). -/
def Dev.engineAhead (d : Dev) (line seq : Nat) : Bool :=
  d.coh.waits.any (fun x => x.2.1 == line && decide (x.2.2 < seq) && d.waitLive x.1)

/-- It is not the engine's turn on the line: a request or an engine that came before it waits for it (R154). -/
def Dev.notTurn (d : Dev) (why : ReqFor) (line : Nat) : Bool :=
  let seq := (d.placeOf why line).getD (d.coh.clock + 1)
  d.engineAhead line seq || d.coh.slots.any (fun e => e.2.phase == .lineBusy line && decide (e.2.seq < seq))

/-- What an engine that stops to wait leaves behind: its place in line, and the access it has had admitted (R154, 02 R59). -/
def Dev.parked (d : Dev) (why : ReqFor) (b : Blk) (passed : Option (Nat × Bool)) : Dev :=
  let d := { d with coh.admitted := d.coh.admitted.filter (fun (x : ReqFor × Nat × Bool) => x.1 != why) ++
                      (match passed with | some x => [(why, x)] | none => []) }
  match b with
  | .line l =>
    if (d.placeOf why l).isSome then d
    else
      let d := d.tick
      { d with coh.waits := d.coh.waits.filter (fun (x : ReqFor × Nat × Nat) => x.1 != why) ++ [(why, l, d.coh.clock)] }
  | _ => { d with coh.waits := d.coh.waits.filter (fun (x : ReqFor × Nat × Nat) => x.1 != why) }

/-- An engine that waits no longer. -/
def Dev.unparked (d : Dev) (why : ReqFor) : Dev :=
  { d with coh.admitted := d.coh.admitted.filter (fun (x : ReqFor × Nat × Bool) => x.1 != why), coh.waits := d.coh.waits.filter (fun (x : ReqFor × Nat × Nat) => x.1 != why),
           coh.txns := d.coh.txns.filter (fun e => e.2.why != .lock why) }

/-- The line is locked by another's atomic, BUSY or in service, or others came first: the engine waits (R154). -/
def eLineFree (w : Who) (line : Nat) (write : Bool := true) : Eng Unit := do
  let d ← eGet
  match kget d.coh.txns line with
  | some t => if t.why = .lock w.why then return () else eBlock (.line line) id
  | none => if d.lineServing line write || d.notTurn w.why line then eBlock (.line line) id else return ()

/-- A read of a PTE at its home as an engine RdOnce, which its page counts (R302, R329): its value, or the fault BAD_NODE or BAD_PTE. Whether
a node of another device lies in an OPEN extent of the Chamber is what its home answers (DEDUCED, log 142). -/
def ePte (w : Who) (node level cva : Nat) : Eng (Except Nat Nat) := do
  let d ← eGet
  let a := pteAddr node level cva
  match d.route a with
  | .here =>
    if !d.nodeOk w.chamber node then return .error 4
    let line := a % 2 ^ 48 / 64
    eLineFree w line false
    match kget d.coh.dir line with
    | some e => if e.st = .he then eSnoop line true
    | none => pure ()
    let (b, p) := d.rdLine line
    eMod (fun d => d.countAccess line 2)
    if p then
      eMod (fun d => d.logPtePoison w.chamber a level)
      return .error 3
    return .ok (field b (a % 64) 8)
  | .away port home =>
    if d.gone home || !nodeFit node then return .error 4
    match (← eAnswer (pteKey a) false) with
    | some r =>
      if r.status ≠ 0 then return .error 4
      else if r.poison then
        eMod (fun d => d.logPtePoison w.chamber a level)
        return .error 3
      else return .ok (field r.data (a % 64) 8)
    | none => eAsk w port { reqMsg 3 3 true w.chamber (a / 64 * 64) 0 [] with eng := true } (pteKey a)
  | _ => return .error 4

/-- A walk from `node` at `level` (R304): the leaf's PTE and level, or the fault's kind and level. -/
def eWalk (w : Who) (cva : Nat) (write : Bool) : Nat → Nat → Nat → Eng (Except (Nat × Nat) (Nat × Nat))
  | 0, level, _ => return .error (3, level)
  | fuel + 1, level, node => do
    match (← ePte w node level cva) with
    | .error k => return .error (k, level)
    | .ok pte =>
      match walkStep pte level write with
      | .fault k => return .error (k, level)
      | .leaf => return .ok (pte, level)
      | .next nd =>
        eMod (fun d => d.walkFill w.chamber cva level pte)
        eWalk w cva write fuel (level - 1) nd

/-- A translated address: pool address, class and T0STAGE of its leaf, level of the leaf. An access of the device's own by PA (`any`) takes
the class under which the line is tracked. -/
structure Xl where
  pa : Nat
  cls : Cls
  t0s : Bool
  level : Nat
  any : Bool := false
deriving DecidableEq, Repr

/-- The translation of a CVA, or the kind and level of the fault that it meets (R304, R305, R308). An access that a resume has set going
walks from the root (R323). -/
def eFind (w : Who) (cva : Nat) (write : Bool) : Eng (Except (Nat × Nat) Xl) := do
  modify (fun s => { s with tr := none })
  let d ← eGet
  let anew := (← get).back == some (.fault (cva / 65536))
  let good (pte level : Nat) : Xl := { pa := leafPa pte level cva, cls := pteCls pte, t0s := pteT0s pte, level := level }
  match (if anew then none else d.tlbLookup w.mt w.chamber cva) with
  | some e =>
    if !write || pteW e.pte then
      eMod (fun d => d.tlbFill w.mt w.chamber cva e.level e.pte)
      return .ok (good e.pte e.level)
  | none => pure ()
  let (l0, n0) := if anew then (2, d.rootOf w.chamber) else d.walkStart w.chamber cva
  let r1 ← eWalk w cva write 3 l0 n0
  -- the walk that bypasses the caches (R308)
  let r ← match r1 with
    | .ok x => pure (Except.ok x)
    | .error _ => eWalk w cva write 3 2 (d.rootOf w.chamber)
  match r with
  | .ok (pte, level) =>
    eMod (fun d => d.tlbFill w.mt w.chamber cva level pte)
    return .ok (good pte level)
  | .error k => return .error k

/-- An access waits on the faults of its pages, which open or join their records together (R319, R326); one that finds no room for a record
stalls, and is counted once (R322). What the walks read is not used again. -/
def eFaults {α : Type} (w : Who) (fs : List (Nat × Nat × Nat)) (write : Bool) : Eng α := do
  let s ← get
  let room (d : Dev) (p : Nat) : Bool := d.recRoom w.chamber || d.hasRec w.chamber p
  let known (d : Dev) (p : Nat) : Bool := match s.back with
    | some (.stalled q) => q == p && !room d p
    | some (.fault _) => (match kget d.xlt.recs (recKey w.chamber p) with | some r => bit r.reqmap w.rq | none => false)
    | _ => false
  let b : Blk := match fs.find? (fun f => room s.d f.1) with
    | some f => .fault f.1
    | none => .stalled (fs.headD (0, 0, 0)).1
  eBlock b (fun d => (fs.foldl (fun (d : Dev) f =>
    if known d f.1 then d else d.fault w.chamber f.1 f.2.1 f.2.2 w.rq write) d).dropPtes w.why)

/-- The translation of a CVA, none when NFZ covers an unmapped page (R308, R327). -/
def eXlate (w : Who) (cva : Nat) (write : Bool) : Eng (Option Xl) := do
  modify (fun s => { s with passed := none })
  match (← eFind w cva write) with
  | .ok x =>
    modify (fun s => { s with tr := some (x.level, cva) })
    return some x
  | .error (kind, level) => if kind = 1 && w.nfz then return none else eFaults w [(cva / 65536, kind, level)] write

/-- The parts of ranges that touch more than one page are translated before any is accessed: those that fault wait together (R326, log 143). -/
def eXlateAll (w : Who) (rs : List (Nat × Nat)) (write : Bool) : Eng Unit := do
  let ps := (rs.flatMap (fun r => units 65536 r.1 r.2)).eraseDups
  if ps.length ≤ 1 then return ()
  let mut fs : List (Nat × Nat × Nat) := []
  for p in ps do
    if !(← eGet).inDbPage w.chamber (p * 65536) then
      match (← eFind w (p * 65536) write) with
      | .ok _ => pure ()
      | .error (kind, level) => if !(kind = 1 && w.nfz) then fs := fs ++ [(p, kind, level)]
  if !fs.isEmpty then eFaults w fs write

/-- A write-protection fault raised at stage 4 (R57, R305). -/
def eWprot {α : Type} (w : Who) (cva level : Nat) : Eng α := eFaults w [(cva / 65536, 2, level)] true

/-! ### One burst's lines -/

/-- Local lines served here for the burst at PA, with the Chamber's stage 4 outcome handled; `line` is the first. An access that
has passed it is not decided again when its work runs again (R59, R60), unless its tier's backing has failed (07 R272). -/
def eStage4 (w : Who) (x : Xl) (cva line : Nat) (write : Bool) (via : Bool) : Eng Bool := do
  let d ← eGet
  let key := (lineExt line, write)
  let tier : Bool := match extKind (lineExt line) with | .t1 | .t2 => true | _ => false
  match (if d.coh.admitted.contains (w.why, key) then (if tier && d.extDead (lineExt line) then .lost else .ok)
    else d.stage4 w.chamber (lineExt line) write via) with
  | .ok =>
    modify (fun s => { s with passed := some key })
    return true
  | .check => eCheck w cva
  | .wprot => eWprot w cva x.level
  | .revoked => eFail 0x40
  | .held => eBlock (.held (lineExt line)) id
  | .lost => return false

/-- The local line at which a stand-in serves a pool address, when a mirror entry names its extent (17 R668). -/
def Dev.standinLine (d : Dev) (pa : Nat) : Option (Nat × Nat) :=
  ((List.range 64).find? (fun k => d.rb .CMP_BUTTRESS_EN k && d.rb .CMP_BUTTRESS_ROLE k &&
    (d.rf .CMP_BUTTRESS_STATE k == 2 || d.rf .CMP_BUTTRESS_STATE k == 3 || d.rf .CMP_BUTTRESS_STATE k == 4) &&
    d.rf .CMP_BUTTRESS_PEER k == pa / 2 ^ 48 && d.rf .CMP_BUTTRESS_PEER_EXT k == pa / 2 ^ 28 % 2 ^ 20)).map
    (fun k => (k, d.rf .CMP_BUTTRESS_EXTENT k * 2 ^ 22 + pa / 64 % 2 ^ 22))

/-- The local lines of a pool address and whether they are served as a stand-in; none when it lies elsewhere. -/
def Dev.localLine (d : Dev) (pa : Nat) : Option (Nat × Bool) :=
  match d.route pa with
  | .here => some (pa % 2 ^ 48 / 64, false)
  | .standin => (d.standinLine pa).map (fun x => (x.2, true))
  | _ => none

/-- Gathered bytes of a window line over fetched ones (14 R557). -/
def Dev.gathered (d : Dev) (c win line : Nat) (b : Bytes) : Bytes :=
  match kget d.wins (c * 64 + win) with
  | none => b
  | some g =>
    let lay (b : Bytes) (m : Map (Nat × Bytes)) : Bytes :=
      match kget m line with
      | some (mask, v) => mergeMask mask b v
      | none => b
    lay (lay (lay b g.after) g.flushing) g.gather

/-- The window of a REMOTE extent is UP (14 R561, R573). A PORT past the 64 windows of a Chamber names none (DESIGN CHOICE, log 144). -/
def Dev.winUp (d : Dev) (c win : Nat) : Bool := decide (win < 64) && d.rb .NET_WIN_EN (c * 64 + win) && d.rf .NET_WIN_STATE (c * 64 + win) == 1

/-- What a logical port transmits in a priority waits while a received pause stops that priority (14 R549). -/
def Dev.netTx (d : Dev) (port prio : Nat) (o : Out) : Dev :=
  if d.net.rxPause.contains (port * 8 + prio) then { d with net.held := d.net.held ++ [(port * 8 + prio, o)] } else d.send o

/-- What a queue pair transmits carries its DSCP (14 R549). -/
def Dev.qpTx (d : Dev) (qp : Nat) (o : Out) : Dev :=
  d.netTx (Config.qpPort qp % 8) (d.rf .NET_DSCP_MAP_PRIO (d.rf .NET_QP_DSCP qp)) o

/-- A queue pair. -/
def Dev.qp (d : Dev) (q : Nat) : Qp :=
  sget { nextPsn := d.rf .NET_QP_SPSN q, rxPsn := d.rf .NET_QP_RPSN q, sent := [], rate := 0, lastCnp := none, nakked := false } d.qps q

/-- Packets that `len` bytes take on a queue pair (14 R551, R572). -/
def Dev.packets (d : Dev) (q len : Nat) : Nat :=
  let mtu := 1024 * 2 ^ min 2 (d.rf .NET_QP_PMTU q)
  max 1 ((len + mtu - 1) / mtu)

/-- A request sent on a queue pair and kept until it is acknowledged (14 R551); `len` bytes travel in its packets. -/
def Dev.qpSend (d : Dev) (qp kind opcode what len : Nat) (bytes : Bytes) : Dev :=
  let q := d.qp qp
  let n := d.packets qp len
  let req : QpReq := { kind := kind, psn := q.nextPsn, n := n, what := what, bytes := bytes, tries := 0 }
  { d.qpTx qp (.rdma qp opcode q.nextPsn bytes) with
      qps := kput d.qps qp { q with nextPsn := (q.nextPsn + n) % 2 ^ 24, sent := q.sent ++ [req] } }

/-- RETH of an RDMA READ or WRITE: virtual address, RKEY, length, in wire order (14 R554). -/
def reth (va rkey len : Nat) : Bytes := (leBytes 8 va).reverse ++ (leBytes 4 rkey).reverse ++ (leBytes 4 len).reverse

/-- Gather buffers of a Chamber in use: one gathering and one being flushed for each window (14 R557). -/
def Dev.gatherBufs (d : Dev) (c : Nat) : Nat :=
  ((d.wins.filter (fun e => e.1 / 64 == c)).map (fun e => b2n (!e.2.gather.isEmpty) + b2n (!e.2.flushing.isEmpty))).sum

/-- The clean granule of a Chamber that was used least recently (14 R556). -/
def Dev.oldGran (d : Dev) (c : Nat) : Option (Nat × Gran) :=
  d.grans.foldl (fun (b : Option (Nat × Gran)) e =>
    if e.2.chamber == c && !e.2.fetching then
      match b with
      | none => some e
      | some x => if e.2.used < x.2.used then some e else some x
    else b) none

/-- Granule frames of a Chamber in use. -/
def Dev.granFrames (d : Dev) (c : Nat) : List Nat := (d.grans.filter (fun e => e.2.chamber == c)).map (fun e => e.2.frame)

/-- Granules that the Chamber's window cache holds beside its gather buffers, four granules each (14 R556, R557). -/
def Dev.granRoom (d : Dev) (c : Nat) : Nat := d.rf .NET_WCACHE_COUNT c * 4096 - 4 * d.gatherBufs c

/-- A free granule frame of the Chamber's window cache, else its clean granule used least recently (14 R556). -/
def Dev.takeGran (d : Dev) (c : Nat) : Option (Nat × Option Nat) :=
  let used := d.granFrames c
  if d.rb .NET_WCACHE_EN c then
    if used.length < d.granRoom c then some (((List.range (used.length + 1)).find? (fun k => !used.contains k)).getD 0, none)
    else (d.oldGran c).map (fun e => (e.2.frame, some e.1))
  else none

/-- A new gather buffer takes four granules of the window cache, clean ones dropped where none is free; none where too many are busy
(14 R556, R557). A cache that is not in use gives buffers all the same (DESIGN CHOICE, log 160). -/
def Dev.bufRoom (d : Dev) (c : Nat) : Nat → Option Dev
  | 0 => none
  | fuel + 1 =>
    if !d.rb .NET_WCACHE_EN c || decide ((d.granFrames c).length + 4 * (d.gatherBufs c + 1) ≤ d.rf .NET_WCACHE_COUNT c * 4096) then some d
    else match d.oldGran c with
      | some (pg, _) => Dev.bufRoom { d with grans := kdel d.grans pg } c fuel
      | none => none

/-- First line of granule frame `k` of the window cache (14 R556). -/
def Dev.granLine (d : Dev) (c k : Nat) : Nat := d.rf .NET_WCACHE_FIRST c * 2 ^ 22 + k * 1024

/-- Starts the fetch of the granule that holds a page of a REMOTE extent (14 R554, R556). -/
def Dev.fetchGran (d : Dev) (c win pg : Nat) : Dev :=
  if (match kget d.grans pg with | some g => g.chamber == c | none => false) then d
  else match d.takeGran c with
    | none => d
    | some (k, old) =>
      let d := match old with | some o => { d with grans := kdel d.grans o } | none => d
      let d := d.tick
      let e := d.extent (pg / 4096)
      let va := e.target * 2 ^ 28 + pg % 4096 * 65536
      let d := { d with grans := kput d.grans pg
                          { chamber := c, win := win, frame := k, fetching := true, keep := true, used := d.coh.clock } }
      d.qpSend (d.rf .NET_WIN_QP (c * 64 + win)) 0 0x0C pg 65536 (reth va (d.rf .NET_WIN_RKEY (c * 64 + win)) 65536)

/-- A window line read by Chamber `c` (14 R556, R557, R561): bytes and mark, or none while its granule is fetched. -/
def Dev.winRead (d : Dev) (c win line : Nat) : Option (Bytes × Bool) :=
  if !d.winUp c win then some (leBytes 64 (Config.poisonLine line 0), true)
  else match kget d.grans (line / 1024) with
    | some g =>
      if g.fetching || g.chamber != c then none
      else
        let l := d.granLine c g.frame + line % 1024
        some (d.gathered c win line (d.rdMem (l * 64) 64), d.poisoned l)
    | none => none

/-- Distinct lines gathered in a window (14 R557). -/
def Dev.gatherCount (d : Dev) (c win : Nat) : Nat :=
  match kget d.wins (c * 64 + win) with | some g => g.gather.length | none => 0

/-- Lines of a window that never reach its remote memory keep their old data there: the operations that wrote them do not count them
(06 R231). -/
def Dev.unwritten (d : Dev) (key : Nat) (ls : List Nat) : Dev :=
  match kget d.wins key with
  | none => d
  | some g =>
    let op (id : Nat) (o : Op) : Op :=
      let gone := ls.filter (fun l => (sget [] g.who l).contains id)
      let n := o.lines - gone.length
      { o with lines := n, seen := o.seen.filter (fun x => !gone.any (fun l => x == d.devnum * 2 ^ 42 + l)),
               phase := match o.phase with
                 | .ending r => .ending (if 0x20 ≤ r.status ∧ r.count = o.lines then { r with count := n } else r)
                 | p => p }
    { d with ops := d.ops.map (fun e => (e.1, op e.1 e.2)),
             wins := kput d.wins key { g with who := g.who.filter (fun e => !ls.contains e.1) } }

/-- A flush of a window fails: its lines are discarded and logged (14 R558). -/
def Dev.flushFail (d : Dev) (key : Nat) : Dev :=
  match kget d.wins key with
  | none => d
  | some g =>
    if g.flushing.isEmpty then d
    else
      let d := d.unwritten key (g.flushing.map Prod.fst)
      { d with wins := kmod d.wins key (fun g => { g with flushing := [], pendingWrites := 0, failed := true }) }.logEvent
        { kind := 0x0F, u := true, aform := 0, tag := key / 64, detail := g.flushing.length,
          addr := d.paOf ((g.flushing.head?.map Prod.fst).getD 0) }

/-- Starts flushing a window's gathered writes: each run of whole lines as one RDMA WRITE, a partly written line by
its masked byte runs (14 R557). The flush of a window that is not UP fails (14 R561, DEDUCED, log 160). -/
def Dev.flushWin (d : Dev) (c win : Nat) : Dev :=
  match kget d.wins (c * 64 + win) with
  | none => d
  | some g =>
    let key := c * 64 + win
    if g.gather.isEmpty || !g.flushing.isEmpty then d
    else if !d.winUp c win then
      Dev.flushFail { d with wins := kput d.wins key { g with gather := [], flushing := g.gather, pendingWrites := 0 } } key
    else
      let qp := d.rf .NET_WIN_QP key
      let rkey := d.rf .NET_WIN_RKEY key
      let va (line byte : Nat) : Nat := (d.extent (lineExt line)).target * 2 ^ 28 + line % 2 ^ 22 * 64 + byte
      let whole := (g.gather.filter (fun e => e.2.1 == fullMask)).map Prod.fst
      let part := g.gather.filter (fun e => e.2.1 != fullMask)
      let wr1 := (runsOf whole).map (fun r =>
        (va (r.headD 0) 0, (r.map (fun l => match kget g.gather l with | some x => padTo 64 x.2 | none => [])).flatten))
      let wr2 := part.flatMap (fun e =>
        (runsOf ((List.range 64).filter (fun k => bit e.2.1 k))).map (fun r =>
          (va e.1 (r.headD 0), ((padTo 64 e.2.2).drop (r.headD 0)).take r.length)))
      let ws := wr1 ++ wr2
      let d := ws.foldl (fun d x => d.qpSend qp 1 0x0A key x.2.length (reth x.1 rkey x.2.length ++ x.2)) d
      { d with wins := kput d.wins key { g with gather := [], flushing := g.gather, pendingWrites := ws.length } }

/-- Gathers a write to a window line; false when it must wait for a third buffer (14 R557). -/
def Dev.winWrite (d : Dev) (c win line mask : Nat) (data : Bytes) : Dev × Bool :=
  let key := c * 64 + win
  let g := sget { gather := [], flushing := [], after := [], pendingWrites := 0, failed := false } d.wins key
  let isNew := (kget g.gather line).isNone
  if isNew && decide (4096 ≤ g.gather.length) && !g.flushing.isEmpty then (d, false)
  else match (if g.gather.isEmpty then d.bufRoom c 5 else some d) with
  | none => (d, false)
  | some d =>
    let (m0, b0) := sget (0, zeros 64) g.gather line
    let g := { g with gather := kput g.gather line (m0 ||| mask, mergeMask mask b0 (padTo 64 data)) }
    let d := { d with wins := kput d.wins key g }
    let d := match kget d.grans (line / 1024) with
      | some gr => if gr.fetching then d else
        let l := d.granLine c gr.frame + line % 1024
        d.wrMem (l * 64) (mergeMask mask (d.rdMem (l * 64) 64) (padTo 64 data))
      | none => d
    (if 4096 ≤ g.gather.length then d.flushWin c win else d, true)

/-- The operation that an engine's access belongs to. -/
def Dev.opFor (d : Dev) : ReqFor → Option Nat
  | .op id => some id
  | .mason k => (kget d.masons (k / 4)).bind Mason.run
  | _ => none

/-- The operation behind an access counts a gathered line until its window's flush has ended (06 R231, 14 R558). -/
def Dev.winWriter (d : Dev) (key line : Nat) (why : ReqFor) : Dev :=
  match d.opFor why with
  | none => d
  | some id => { d with wins := kmod d.wins key (fun g =>
      let l := sget [] g.who line
      if l.contains id then g else { g with who := kput g.who line (l ++ [id]) }) }

/-- The blocks of a page that lines [l, l + n) touch, as a mask. -/
def blockMask (l n : Nat) : Nat := maskOf ((units 64 l n).map (fun b => b % 16))

/-- A read of `n` lines of one burst from local line `l0` (R135, R188, R189). -/
def eReadHere (w : Who) (x : Xl) (cva l0 n : Nat) (via : Bool) (want : Nat) : Eng (List (Bytes × Bool)) := do
  let ls := (List.range n).map (fun i => l0 + i)
  if !(← eStage4 w x cva l0 false via) then
    eLost w.chamber l0 false
    return ls.map (fun l => (leBytes 64 (Config.poisonLine l 0), true))
  let d ← eGet
  match extKind (lineExt l0) with
  | .remote =>
    let win := (d.extent (lineExt l0)).port
    ls.mapM (fun l => do
      let d ← eGet
      match (← eAnswer (d.devnum * 2 ^ 42 + l) false) with
      | some a => return (a.data, a.poison)
      | none => pure ()
      match d.winRead w.chamber win l with
      | some r => return r
      | none => eBlock (.granule win (l / 1024)) (fun d => d.fetchGran w.chamber win (l / 1024)))
  | kind =>
    for l in ls do
      eLineFree w l false
      match kget d.coh.dir l with
      | some e => if !x.any && e.cls != x.cls then eSnoop l false else if e.st = .he then eSnoop l true
      | none => pure ()
    match kind with
    | .lent =>
      let e := d.extent (lineExt l0)
      let key := d.devnum * 2 ^ 42
      let out ← ls.mapM (fun l => do
        match (← eAnswer (key + l) false) with
        | some a =>
          match ansFail a with
          | some st => eFail st
          | none => return (a.data, a.poison || (← eGet).poisoned l)
        | none => eAsk w e.port (reqMsg 3 w.tc true w.chamber (e.target * 2 ^ 28 + l0 % 2 ^ 22 * 64) (n - 1) []) (key + l0))
      return out
    | _ =>
      let key := unstagedKey l0
      let bad ← match (← eAnswer key false) with
        | some a =>
          modify (fun s => { s with unstaged := true })
          pure a.poison
        | none =>
          match (d.tierGo w.chamber l0 false x.t0s want).2 with
          | .wait pg => eBlock (.page pg) (fun d => (d.tierGo w.chamber l0 false x.t0s want).1)
          | .unstaged => eBlock (.answer key) (fun d =>
              if d.unstagedOut w.why l0 then d else ((d.tierGo w.chamber l0 false x.t0s want).1).unstagedRead w.why l0)
          | _ => pure false
      eMod (fun d => (d.countAccess l0 2).countBytes l0 (64 * n) false)
      let d ← eGet
      return ls.map (fun l => if bad then (leBytes 64 (Config.poisonLine l 0), true) else d.rdLine l)

/-- A read of lines of one burst at a CVA (R326, R327): bytes and mark of each line. -/
def eReadBurst (w : Who) (cva n want : Nat) : Eng (List (Bytes × Bool)) := do
  let d ← eGet
  if d.inDbPage w.chamber cva then
    return (List.range n).map (fun i => (d.doorbellRead w.chamber ((cva + 64 * i) % 65536), false))
  match (← eXlate w cva false) with
  | none =>
    modify (fun s => { s with nfzLines := s.nfzLines + n })
    return List.replicate n (zeros 64, false)
  | some x =>
    let d ← eGet
    match d.localLine x.pa with
    | some (l0, via) => eReadHere w x cva l0 n via want
    | none =>
      match d.route x.pa with
      | .away port home =>
        if d.gone home then eFail 0x50
        let k := x.pa / 64
        (List.range n).mapM (fun i => do
          match (← eAnswer (k + i) false) with
          | some a =>
            match ansFail a with
            | some st => eFail st
            | none => return (a.data, a.poison)
          | none => eAsk w port { reqMsg 3 w.tc true w.chamber x.pa (n - 1) [] with
                                   eng := true, t0s := x.t0s, cls := x.cls == .sharedRead } k)
      | .standin =>
        eLost w.chamber (x.pa / 64) false
        return List.replicate n (leBytes 64 (Config.poisonLine (x.pa / 64) 0), true)
      | _ => eCheck w cva

/-- The lines of one burst that a range touches, burst by burst: (CVA of the first line, lines). -/
def burstsOf (a n : Nat) : List (Nat × Nat) :=
  (units 256 a n).map (fun u =>
    let p := unitPart 256 u a n
    let l0 := p.1 / 64
    (l0 * 64, (p.1 + p.2 + 63) / 64 - l0))

/-- The lines that the byte range [cva, cva + n) touches, each with its CVA, bytes and mark; the range is split at
pages (R326). -/
def eReadLines (w : Who) (cva n : Nat) : Eng (List (Nat × Bytes × Bool)) := do
  eXlateAll w [(cva, n)] false
  let parts ← (units 65536 cva n).mapM (fun pg => do
    let (a, k) := unitPart 65536 pg cva n
    let want := blockMask (a / 64 % 1024) ((a + k + 63) / 64 - a / 64)
    modify (fun s => { s with lost := false })
    let bs ← (burstsOf a k).mapM (fun b => do
      let r ← eReadBurst w b.1 b.2 want
      return r.mapIdx (fun i v => (b.1 + 64 * i, v.1, v.2)))
    return bs.flatten)
  return parts.flatten

/-- The bytes [cva, cva + n) and whether any line of them is poisoned. -/
def eRead (w : Who) (cva n : Nat) : Eng (Bytes × Bool) := do
  let ls ← eReadLines w cva n
  let all := (ls.map (fun l => l.2.1)).flatten
  return ((all.drop (cva % 64)).take n, ls.any (fun l => l.2.2))

/-- A line to be written: local offset within the burst is implied by its place; mask, bytes, mark. -/
structure WLine where
  mask : Nat
  data : Bytes
  poison : Bool
deriving DecidableEq, Repr

/-- Groups a burst's lines into runs that one request can carry: whole lines together, a partial line alone. -/
def wRuns : List (Nat × WLine) → List (Nat × List WLine)
  | [] => []
  | (a, v) :: l => match wRuns l with
    | [] => [(a, [v])]
    | (b, vs) :: rs =>
      if v.mask = fullMask ∧ (vs.all (fun u => u.mask == fullMask)) = true ∧ b = a + 64
      then (a, v :: vs) :: rs else (a, [v]) :: (b, vs) :: rs

/-- The request that writes lines at a pool address of another home (R145). -/
def writeMsg (c pa : Nat) (ws : List WLine) : Msg :=
  match ws with
  | [v] => if v.mask = fullMask then reqMsg 4 5 true c pa 0 (padTo 64 v.data) else reqMsg 5 5 true c pa v.mask (padTo 64 v.data)
  | _ => reqMsg 4 5 true c pa (ws.length - 1) ((ws.map (fun v => padTo 64 v.data)).flatten)

/-- The lines from `l0` kept BUSY for an engine until its write of the burst has been answered (R189). -/
def Dev.lockLines (d : Dev) (why : ReqFor) (ls : List Nat) : Dev :=
  ls.foldl (fun d l => if d.lineBusy l then d else
    { d with coh.txns := kput d.coh.txns l { why := .lock why, open_ := [], kept := [], poisoned := false } }) d

/-- A write of consecutive lines of one burst from local line `l0` (R135, R189). `span` is how many lines before and from `l0` the
transfer covers in the burst, when it goes to a lender in several messages: they stay locked until all are answered. -/
def eWriteHere (w : Who) (x : Xl) (cva l0 : Nat) (ws : List WLine) (via : Bool) (span : Nat × Nat := (0, 0)) : Eng Unit := do
  let ls := ws.mapIdx (fun i v => (l0 + i, v))
  if !(← eStage4 w x cva l0 true via) then
    eLost w.chamber l0 true
    eFail 0x30
  let d ← eGet
  let kind := extKind (lineExt l0)
  if kind = .remote then
    let win := (d.extent (lineExt l0)).port
    for (l, v) in ls do
      let d ← eGet
      if !d.winUp w.chamber win then
        eMod (fun d => d.logEvent { kind := 0x0F, u := true, tag := w.chamber, detail := 1, aform := 0, addr := d.paOf l })
        eFail 0x50
      if v.poison then
        modify (fun s => { s with poison := true })
        eMod (fun d => d.logEvent { kind := 0x0F, u := true, tag := w.chamber, detail := 1, aform := 0, addr := d.paOf l })
      else
        let (d1, ok) := d.winWrite w.chamber win l v.mask v.data
        if ok then set { (← get) with d := d1.winWriter (w.chamber * 64 + win) l w.why } else eBlock (.granule win (l / 1024)) id
  else
    for (l, _) in ls do
      eLineFree w l
      match kget d.coh.dir l with
      | some e => if (!x.any && x.cls == .held) || e.cls == .held then eSnoop l false
      | none => pure ()
    if kind = .lent then
      let e := d.extent (lineExt l0)
      let key := d.devnum * 2 ^ 42 + l0
      match (← eAnswer key true) with
      | some a =>
        match ansFail a with
        | some st => eFail st
        | none =>
          for (l, v) in ls do
            eMod (fun d => if v.mask = fullMask then d.setPoison l v.poison else if v.poison then d.poison l else d)
      | none =>
        let addr := e.target * 2 ^ 28 + l0 % 2 ^ 22 * 64
        let m := writeMsg w.chamber addr ws
        let all := (List.range span.2).map (fun i => l0 - span.1 + i)
        let tr := (← get).tr
        eBlock (.answer key) (fun d =>
          let d := if d.asked w.why key then d else d.askOut e.port m w.why key tr
          d.lockLines w.why all)
    else
      let (_, go) := d.tierGo w.chamber l0 true x.t0s 0xFFFF
      match go with
      | .wait pg => eBlock (.page pg) (fun d => (d.tierGo w.chamber l0 true x.t0s 0xFFFF).1)
      | .short => eMod (fun d => (d.tierGo w.chamber l0 true x.t0s 0xFFFF).1); eFail 0x42
      | _ => pure ()
      eMod (fun d => d.countAccess l0 2)
      for (l, v) in ls do
        eMod (fun d => d.homeWrite l v.mask v.data v.poison w.why)
  /- a poisoned window line is withheld, so it is no line written (06 R231, 16 R625) -/
  eCount ((ls.filter (fun l => kind != .remote || !l.2.poison)).map (fun l => d.devnum * 2 ^ 42 + l.1))
  modify (fun s => { s with poison := s.poison || ws.any (fun v => v.poison) })

/-- A write of one burst's lines toward another home, run by run. Mortar requests carry no poison mark: a poisoned line is withheld and
logged, as a gateway's is, and POISON is set (16 R623, R625, DESIGN CHOICE, log 145). -/
def eWriteAway (w : Who) (x : Xl) (cva port : Nat) (ws : List WLine) : Eng Unit := do
  let ls := ws.mapIdx (fun i v => (64 * i, v))
  for (a, _) in ls.filter (fun e => e.2.poison) do
    modify (fun s => { s with poison := true })
    eMod (fun d => d.logEvent { kind := 0x0F, u := true, tag := w.chamber, detail := 1, aform := 0, addr := x.pa + a })
  for r in wRuns (ls.filter (fun e => !e.2.poison)) do
    let key := x.pa / 64 + r.1 / 64
    match (← eAnswer key true) with
    | some a =>
      if a.wprot then eWprot w cva x.level
      else match ansFail a with
        | some st => eFail st
        | none => eCount ((List.range r.2.length).map (fun i => key + i))
    | none => eAsk w port { writeMsg w.chamber (x.pa + r.1) r.2 with eng := true, t0s := x.t0s, cls := x.cls == .sharedRead } key

/-- A write of consecutive lines of one burst at a CVA (R326, R327). -/
def eWriteBurst (w : Who) (cva : Nat) (ws : List WLine) (span : Nat × Nat := (0, 0)) : Eng Unit := do
  let d ← eGet
  if d.inDbPage w.chamber cva then
    for (i, v) in ws.mapIdx (fun i v => (i, v)) do
      eMod (fun d => d.doorbellPage w.chamber ((cva + 64 * i) % 65536) v.mask v.data)
    return ()
  match (← eXlate w cva true) with
  | none => modify (fun s => { s with nfzLines := s.nfzLines + ws.length })
  | some x =>
    let d ← eGet
    match d.localLine x.pa with
    | some (l0, via) => eWriteHere w x cva l0 ws via span
    | none =>
      match d.route x.pa with
      | .away port home => if d.gone home then eFail 0x50 else eWriteAway w x cva port ws
      | .standin => eLost w.chamber (x.pa / 64) true; eFail 0x30
      | _ => eCheck w cva

/-- Writes one burst's lines, in rising order: runs that one request cannot carry stay together (R189). -/
def eBurst (ls : List (Nat × WLine)) (put : Nat → List WLine → Nat × Nat → Eng Unit) : Eng Unit := do
  let runs := wRuns ls
  let lo := ((ls.head?.map Prod.fst).getD 0) / 64
  let n := ((ls.getLast?.map Prod.fst).getD 0) / 64 + 1 - lo
  for r in runs do
    put r.1 r.2 (if runs.length = 1 then (0, 0) else (r.1 / 64 - lo, n))

/-- Writes lines, in rising order of their numbers, burst by burst (R189). -/
def eBursts (ls : Map WLine) (put : Nat → List WLine → Nat × Nat → Eng Unit) : Eng Unit := do
  for q in (ls.map (fun e => e.1 / 4)).eraseDups do
    eBurst ((ls.filter (fun e => e.1 / 4 == q)).map (fun e => (e.1 * 64, e.2))) put

/-- Writes bytes at a CVA; `mark` says which lines (by CVA / 64) are written poisoned. A line written only in part is a
WrPartial of its bytes (R326). -/
def eWriteMarked (w : Who) (cva : Nat) (bs : Bytes) (mark : Nat → Bool) : Eng Unit := do
  eXlateAll w [(cva, bs.length)] true
  for b in burstsOf cva bs.length do
    let ls := (List.range b.2).map (fun i =>
      let l := b.1 / 64 + i
      let (lo, k) := unitPart 64 l cva bs.length
      let part := (bs.drop (lo - cva)).take k
      (l * 64, ({ mask := if k = 64 then fullMask else (2 ^ k - 1) * 2 ^ (lo % 64),
                  data := padTo 64 (zeros (lo % 64) ++ part), poison := mark l } : WLine)))
    eBurst ls (fun a ws span => eWriteBurst w a ws span)

/-- Writes bytes at a CVA, none of them poisoned. -/
def eWrite (w : Who) (cva : Nat) (bs : Bytes) : Eng Unit := eWriteMarked w cva bs (fun _ => false)

/-- A little-endian number of `n` bytes at a CVA; poison ends the work POISON_CONSUMED (16 R625). -/
def eNum (w : Who) (cva n : Nat) : Eng Nat := do
  let (b, p) ← eRead w cva n
  if p then eFail 0x30
  return ofLE b

/-- Runs engine work of a requester on a device: its answer and the end state. Work that must wait keeps its place in line and its
admitted access; work that has ended keeps neither. `back` is the wait from which it comes back. -/
def runEng {α : Type} (why : ReqFor) (m : Eng α) (d : Dev) (ans : List Ans) (seen : List Nat := []) (back : Option Blk := none) :
    Except Stop α × ES :=
  match m.run.run { d := d, lines := 0, nfzLines := 0, poison := false, unstaged := false, ans := ans, seen := seen, lost := false,
                    passed := none, applied := false, back := back, tr := none } with
  | (.error (.block b start), es) => (.error (.block b (fun d => (start d).parked why b es.passed)), es)
  | (r, es) => (r, { es with d := es.d.unparked why })

end Sys2Proof.Machine
end

