-- ==== Sys2Proof/Machine/Flt.lean ====
section
/-!
DEFINITION. Floating-point values as exact numbers m * 2^e, the formats that hold them and rounding to nearest, ties to
even (05 R206; the formats of 09 are instances).
-/

namespace Sys2Proof.Machine

/-- A number, an infinity or a NaN. -/
inductive FV where
  | nan
  | inf (neg : Bool)
  | fin (neg : Bool) (m : Nat) (e : Int)
deriving DecidableEq, Repr

/-- How a format spends its largest exponent: infinities and NaNs, one NaN and no infinity, or finite numbers only. -/
inductive Top where
  | ieee | nanOnly | finite
deriving DecidableEq, Repr

/-- A floating-point format: exponent bits, fraction bits, bias. -/
structure Fmt where
  eb : Nat
  mb : Nat
  bias : Nat
  top : Top
deriving DecidableEq, Repr

def fp32 : Fmt := { eb := 8, mb := 23, bias := 127, top := .ieee }
def fp16 : Fmt := { eb := 5, mb := 10, bias := 15, top := .ieee }
def bf16 : Fmt := { eb := 8, mb := 7, bias := 127, top := .ieee }
def e4m3 : Fmt := { eb := 4, mb := 3, bias := 7, top := .nanOnly }
def e5m2 : Fmt := { eb := 5, mb := 2, bias := 15, top := .ieee }
def e3m2 : Fmt := { eb := 3, mb := 2, bias := 3, top := .finite }
def e2m3 : Fmt := { eb := 2, mb := 3, bias := 1, top := .finite }
def e2m1 : Fmt := { eb := 2, mb := 1, bias := 1, top := .finite }

/-- Bits of the format. -/
def Fmt.width (f : Fmt) : Nat := 1 + f.eb + f.mb

/-- The value that an encoding spells. -/
def decodeF (f : Fmt) (x : Nat) : FV :=
  let neg := bit x (f.eb + f.mb)
  let e := bits x f.mb f.eb
  let m := bits x 0 f.mb
  if f.top = .ieee ∧ e = 2 ^ f.eb - 1 then (if m = 0 then .inf neg else .nan)
  else if f.top = .nanOnly ∧ e = 2 ^ f.eb - 1 ∧ m = 2 ^ f.mb - 1 then .nan
  else if e = 0 then .fin neg m (1 - (f.bias : Int) - f.mb)
  else .fin neg (2 ^ f.mb + m) ((e : Int) - f.bias - f.mb)

/-- m / 2^s rounded to nearest, ties to even. -/
def rneShift (m s : Nat) : Nat :=
  let q := m / 2 ^ s
  let r := m % 2 ^ s
  if s = 0 then m
  else if 2 ^ (s - 1) < r then q + 1
  else if r = 2 ^ (s - 1) then q + q % 2 else q

/-- Magnitude encoding of infinity, or one above the largest finite magnitude of the format. -/
def Fmt.limit (f : Fmt) : Nat :=
  match f.top with
  | .ieee => (2 ^ f.eb - 1) * 2 ^ f.mb
  | .nanOnly => 2 ^ (f.eb + f.mb) - 1
  | .finite => 2 ^ (f.eb + f.mb)

/-- The quiet NaN of the format; a format without NaN gives its largest magnitude. -/
def Fmt.qnan (f : Fmt) : Nat :=
  match f.top with
  | .ieee => (2 ^ f.eb - 1) * 2 ^ f.mb + 2 ^ (f.mb - 1)
  | .nanOnly => 2 ^ (f.eb + f.mb) - 1
  | .finite => 2 ^ (f.eb + f.mb) - 1

/-- Rounds to the format. `sat` asks that overflow give the largest finite magnitude; otherwise it gives infinity, or
NaN where the format has no infinity. -/
def encodeF (f : Fmt) (sat : Bool) (v : FV) : Nat :=
  let sgn (neg : Bool) (mag : Nat) : Nat := b2n neg * 2 ^ (f.eb + f.mb) + mag
  let big (neg : Bool) : Nat :=
    if sat then sgn neg (f.limit - 1)
    else match f.top with
      | .ieee => sgn neg f.limit
      | .nanOnly => sgn neg f.qnan
      | .finite => sgn neg (f.limit - 1)
  match v with
  | .nan => f.qnan
  | .inf neg => big neg
  | .fin neg m e =>
    if m = 0 then sgn neg 0
    else
      let lead : Int := e + Nat.log2 m
      let low : Int := 1 - (f.bias : Int) - f.mb
      let q : Int := max (lead - f.mb) low
      let r := if q ≤ e then m * 2 ^ (e - q).toNat else rneShift m (q - e).toNat
      let mag := r + (q - low).toNat * 2 ^ f.mb
      if f.limit ≤ mag then big neg else sgn neg mag

/-- The exact sum; an exact zero of opposite signs is +0 (R206). -/
def addF : FV → FV → FV
  | .nan, _ => .nan
  | _, .nan => .nan
  | .inf a, .inf b => if a = b then .inf a else .nan
  | .inf a, _ => .inf a
  | _, .inf b => .inf b
  | .fin na ma ea, .fin nb mb eb =>
    let e := min ea eb
    let a : Int := (if na then -1 else 1) * (ma * 2 ^ (ea - e).toNat : Nat)
    let b : Int := (if nb then -1 else 1) * (mb * 2 ^ (eb - e).toNat : Nat)
    let s := a + b
    if s = 0 then .fin (na && nb) 0 e
    else .fin (decide (s < 0)) s.natAbs e

/-- The exact product. -/
def mulF : FV → FV → FV
  | .nan, _ => .nan
  | _, .nan => .nan
  | .inf a, .inf b => .inf (xor a b)
  | .inf a, .fin b m _ => if m = 0 then .nan else .inf (xor a b)
  | .fin a m _, .inf b => if m = 0 then .nan else .inf (xor a b)
  | .fin a m e, .fin b n f => .fin (xor a b) (m * n) (e + f)

/-- The negated value. -/
def negF : FV → FV
  | .nan => .nan
  | .inf a => .inf (!a)
  | .fin a m e => .fin (!a) m e

/-- An integer as a value. -/
def intF (i : Int) : FV := .fin (decide (i < 0)) i.natAbs 0

/-- `a < b`, false when either is NaN. -/
def ltF : FV → FV → Bool
  | .nan, _ => false
  | _, .nan => false
  | .inf a, .inf b => a && !b
  | .inf a, .fin .. => a
  | .fin .., .inf b => !b
  | .fin na ma ea, .fin nb mb eb =>
    let e := min ea eb
    let a : Int := (if na then -1 else 1) * (ma * 2 ^ (ea - e).toNat : Nat)
    let b : Int := (if nb then -1 else 1) * (mb * 2 ^ (eb - e).toNat : Nat)
    decide (a < b)

/-- FADD of 05 R205, R206 on binary32 encodings. -/
def fadd32 (a b : Nat) : Nat := encodeF fp32 false (addF (decodeF fp32 a) (decodeF fp32 b))

end Sys2Proof.Machine
end

