-- ==== Sys2Proof/Machine/Atomics.lean ====
section
/-!
DEFINITION. Atomics: the value stored (05 R205-R208), which pairs of AOP and SIZE exist (04 R177), and an engine's
atomic at the home or beyond (04 R176, 05 R201).
-/

namespace Sys2Proof.Machine

/-- Bytes of a SIZE code (04 R145). -/
def atomicBytes (size : Nat) : Option Nat :=
  if size = 2 then some 4 else if size = 3 then some 8 else if size = 4 then some 16 else none

/-- The AOP accepts the size (R177). -/
def atomicOk (aop size : Nat) : Bool :=
  match atomicBytes size with
  | some 4 => decide (aop ≤ 6)
  | some 8 => decide (aop ≤ 6) && aop != 1
  | some 16 => aop == 6
  | _ => false

/-- The value stored by AOP on `n` bytes: m in memory, v the operand or compare value, s the swap value (R205). -/
def atomicVal (aop n m v s : Nat) : Nat :=
  let w := 8 * n
  match aop with
  | 0 => (m + v) % 2 ^ w
  | 1 => fadd32 m v
  | 2 => if toInt w v < toInt w m then v else m
  | 3 => if toInt w m < toInt w v then v else m
  | 4 => if v < m then v else m
  | 5 => if m < v then v else m
  | _ => if m = v then s else m

/-- An engine's atomic on the `n` bytes at a CVA, aligned (R176, R201, R624): the old value, whether it was applied,
whether it was discarded for an unmapped page. `scope` and `order` travel to another home. -/
structure AtomicRes where
  old : Nat
  applied : Bool
  unmapped : Bool
  poisoned : Bool
deriving DecidableEq, Repr

/-- An engine's atomic in a local line. -/
def eAtomicHere (w : Who) (x : Xl) (cva line : Nat) (via : Bool) (aop n v s : Nat) : Eng AtomicRes := do
  if !(← eStage4 w x cva line true via) then
    eLost w.chamber line true
    eFail 0x30
  let d ← eGet
  let off := cva % 64
  let apply (b : Bytes) : Nat × Bytes :=
    let m := field b off n
    (m, zeros off ++ leBytes n (atomicVal aop n m v s))
  let mask := (2 ^ n - 1) * 2 ^ off
  match extKind (lineExt line) with
  | .remote => eFail 0x7F
  | kind =>
    eLineFree w line
    match kget d.coh.dir line with
    | some e => if (!x.any && x.cls == .held) || e.cls == .held then eSnoop line false
    | none => pure ()
    match kind with
    | .lent =>
      let e := d.extent (lineExt line)
      let key := d.devnum * 2 ^ 42 + line
      let addr := e.target * 2 ^ 28 + line % 2 ^ 22 * 64
      let tr := (← get).tr
      match (← eAnswer key false) with
      | none => eBlock (.answer key) (fun d =>
          let d := if d.asked w.why key then d else d.askOut e.port (reqMsg 3 5 true w.chamber addr 0 []) w.why key tr
          { d with coh.txns := kput d.coh.txns line { why := .lock w.why, open_ := [], kept := [], poisoned := false } })
      | some a =>
        match ansFail a with
        | some st =>
          eMod (fun d => { d with coh.txns := kdel d.coh.txns line })
          eFail st
        | none => pure ()
        if a.poison || d.poisoned line then
          eMod (fun d => { d with coh.txns := kdel d.coh.txns line })
          return { old := 0, applied := false, unmapped := false, poisoned := true }
        let (m, b) := apply a.data
        match (← eAnswer key true) with
        | none => eAsk w e.port (reqMsg 5 5 true w.chamber addr mask (padTo 64 b)) key
        | some r =>
          eMod (fun d => { d with coh.txns := kdel d.coh.txns line })
          match ansFail r with
          | some st => eFail st
          | none =>
            eCount [key]
            return { old := m, applied := true, unmapped := false, poisoned := false }
    | _ =>
      let (_, go) := d.tierGo w.chamber line true x.t0s 0xFFFF
      match go with
      | .wait pg => eBlock (.page pg) (fun d => (d.tierGo w.chamber line true x.t0s 0xFFFF).1)
      | .short => eMod (fun d => (d.tierGo w.chamber line true x.t0s 0xFFFF).1); eFail 0x42
      | _ => pure ()
      eMod (fun d => d.countAccess line 2)
      let d ← eGet
      if (d.rdLine line).2 then return { old := 0, applied := false, unmapped := false, poisoned := true }
      let (m, b) := apply (d.rdLine line).1
      eMod (fun d => d.homeWrite line mask b false w.why)
      eCount [d.devnum * 2 ^ 42 + line]
      return { old := m, applied := true, unmapped := false, poisoned := false }

/-- The number under which an atomic of Mason or Course scope keeps what it has read: that of no pool line. -/
def nearKey (scope cva : Nat) : Nat := (if scope = 1 then 3 * 2 ^ 49 else 2 ^ 50) + cva / 64

/-- A Mason of the Course has an atomic in the Course's atomic unit (05 R201). -/
def Dev.courseBusy (d : Dev) (co : Nat) : Bool :=
  d.masons.any (fun e => e.1 / 9 == co && e.2.queues.any (fun q => match q.2 with
    | b :: _ => b.ans.any (fun a => a.line / 2 ^ 49 == 3)
    | [] => false))

/-- An answer of the device to itself. -/
def ownAns (line : Nat) (write : Bool) (b : Bytes) (poison : Bool) : Ans :=
  { line := line, write := write, status := 0, data := b, poison := poison, wprot := false }

/-- An atomic of Mason or Course scope: the line is read, and the part written in a later step, the line not held between; those of a Course
take its atomic unit one after another (R201, R203). One to a window line is not applied (14 R557). -/
def eAtomicNear (w : Who) (cva aop n v s scope : Nat) : Eng AtomicRes := do
  let key := nearKey scope cva
  let off := cva % 64
  let unmapped : AtomicRes := { old := 0, applied := false, unmapped := true, poisoned := false }
  match (← eXlate w cva true) with
  | none =>
    modify (fun s => { s with nfzLines := s.nfzLines + 1 })
    return unmapped
  | some x =>
    match (← eGet).localLine x.pa with
    | some (l, _) => if extKind (lineExt l) = .remote then eFail 0x7F
    | none => pure ()
  match scope, w.why with
  | 1, .mason k =>
    if (← eAnswer key true).isNone then
      if (← eGet).courseBusy (k / 36) then eBlock (.course (k / 36)) id
      else eBlock (.answer key) (fun d => d.giveAns w.why [ownAns key true [] false])
  | _, _ => pure ()
  match (← eAnswer key false) with
  | none =>
    match (← eReadBurst { w with tc := 5 } (cva / 64 * 64) 1 0xFFFF) with
    | (b, p) :: _ => eBlock (.answer key) (fun d => d.giveAns w.why [ownAns key false b p])
    | [] => return unmapped
  | some a =>
    if a.poison then return { old := 0, applied := false, unmapped := false, poisoned := true }
    let m := field a.data off n
    eWriteBurst w (cva / 64 * 64)
      [{ mask := (2 ^ n - 1) * 2 ^ off, data := padTo 64 (zeros off ++ leBytes n (atomicVal aop n m v s)), poison := false }]
    return { old := m, applied := true, unmapped := false, poisoned := false }

/-- An engine's atomic at a CVA, as its scope has it. -/
def eAtomicAny (w : Who) (cva aop size n scope order v s : Nat) : Eng AtomicRes := do
  if (← eGet).inDbPage w.chamber cva then eFail 0x7F
  if scope < 2 then return ← eAtomicNear w cva aop n v s scope
  match (← eXlate w cva true) with
  | none =>
    modify (fun s => { s with nfzLines := s.nfzLines + 1 })
    return { old := 0, applied := false, unmapped := true, poisoned := false }
  | some x =>
    let d ← eGet
    match d.localLine x.pa with
    | some (l, via) => eAtomicHere w x cva l via aop n v s
    | none =>
      match d.route x.pa with
      | .away port home =>
        if d.gone home then eFail 0x50
        let key := x.pa / 64
        match (← eAnswer key true) with
        | some a =>
          if a.wprot then eWprot w cva x.level
          else if a.poison || a.status = 0x30 then
            return { old := 0, applied := false, unmapped := false, poisoned := true }
          else match ansFail a with
            | some st => eFail st
            | none =>
              eCount [key]
              return { old := field a.data 0 n, applied := true, unmapped := false, poisoned := false }
        | none =>
          let args := aop + 16 * size + 256 * (scope + 4 * order)
          eAsk w port { reqMsg 6 5 true w.chamber x.pa args (padTo 16 (leBytes n v) ++ padTo 16 (leBytes n s)) with
                          eng := true, t0s := x.t0s, cls := x.cls == .sharedRead } key
      | .standin => eLost w.chamber (x.pa / 64) true; eFail 0x30
      | _ => eCheck w cva

/-- An engine's atomic at a CVA; whether it was performed is kept for its operation's record (06 R228). -/
def eAtomic (w : Who) (cva aop size n scope order v s : Nat) : Eng AtomicRes := do
  let r ← eAtomicAny w cva aop size n scope order v s
  modify (fun s => { s with applied := s.applied || r.applied })
  return r

end Sys2Proof.Machine
end

