-- ==== Sys2Proof/Machine/Rings.lean ====
section
/-!
DEFINITION. Operations of the work rings: running one, ending it, its completion record and signals (06 R223-R240).
-/

namespace Sys2Proof.Machine

/-- A field of a descriptor's bytes. -/
def Op.f (o : Op) (off n : Nat) : Nat := field o.body off n

/-- Bytes of a descriptor are all zero: its reserved fields (00 R13, R14). -/
def Op.zero (o : Op) (off n : Nat) : Bool := o.f off n == 0

/-- The device with an operation changed. -/
def Dev.setOp (d : Dev) (id : Nat) (o : Op) : Dev := { d with ops := kput d.ops id o }

/-- Barrow of an operation. -/
def barrowOf (id : Nat) : Nat := Config.barrow id % 32

/-- The operation as a requester carried by a Barrow. -/
def opWho (id : Nat) (o : Op) : Who :=
  { chamber := o.chamber, rq := 48 + barrowOf id, mt := some (176 + barrowOf id), nfz := o.nfz, why := .op id,
    tc := if o.tc = 3 then 3 else 4 }

/-- The operation as a requester of another unit: REQMAP bit and micro-TLB. -/
def opWhoOf (id : Nat) (o : Op) (rq : Nat) (mt : Option Nat) : Who :=
  { chamber := o.chamber, rq := rq, mt := mt, nfz := o.nfz, why := .op id, tc := if o.tc = 3 then 3 else 4 }

/-- An operation of the Chamber works on a Gallery leaf (13 R536, R539). -/
def Dev.leafHeld (d : Dev) (c l : Nat) : Bool :=
  d.gal.works.any (fun e => e.2.held == some l && match kget d.ops e.1 with | some o => o.chamber == c | none => false)

/-- What an engine waited for has come (08 R323, 04 R154, 07 R269). -/
def Dev.cleared (d : Dev) (c : Nat) (ans : List Ans) : Blk → Bool
  | .fault page => !d.hasRec c page
  | .stalled page => d.recRoom c || d.hasRec c page
  | .line l => !d.lineBusy l && !d.lineServing l false
  | .held n => !d.extHeld n
  | .page pg => !d.pageFilling pg
  | .answer l => ans.any (fun a => a.line == l)
  | .granule _ g => match kget d.grans g with | some x => !x.fetching | none => true
  | .course co => !d.courseBusy co
  | .leaf l => !d.leafHeld c l

/-- The wait from which an operation comes back. -/
def Op.back (o : Op) : Option Blk := match o.phase with | .blocked b => some b | _ => none

/-- Sends the completion signal of a ring (R239, R240). -/
def Dev.signalRing (d : Dev) (c r : Nat) : Dev :=
  let i := ringIx c r
  let s := d.ring i
  let tgt := d.rf .CHM_RING_SIG_TARGET i
  let d := d.setRing i { s with unsig := 0 }
  match d.rf .CHM_RING_SIG_MODE i with
  | 1 => d.send (.msg (d.portTo tgt) { homeMsg 0x40 3 2 with
      chamber := BitVec.ofNat 4 c, dst := BitVec.ofNat 16 tgt,
      addr := BitVec.ofNat 56 (d.rf .CHM_RING_CBASE_BASE i * 4096),
      args := BitVec.ofNat 64 (r % 64 * 2 ^ 16 + u32 s.written * 2 ^ 32) })
  | 2 => d.send (.msix (tgt / 256 % 16) (tgt % 256))
  | 3 => d.send (.control c r (u32 s.written))
  | _ => d

/-- The 32 bytes of a completion record (R228). -/
def recBytes (r : CRec) (phase : Bool) (ring stamp : Nat) : Bytes :=
  leBytes 1 r.status ++ leBytes 1 r.opcode ++
    leBytes 1 (b2n phase + 2 * b2n r.applied + 4 * b2n r.fallback + 8 * b2n r.poison) ++ leBytes 1 (ring % 64) ++
    leBytes 4 stamp ++ leBytes 8 r.tag ++ leBytes 8 r.count ++ leBytes 8 r.result

/-- Windows of a Chamber with gathered or unflushed writes (14 R558). -/
def Dev.dirtyWins (d : Dev) (c : Nat) : List Nat :=
  (List.range 64).filter (fun w => match kget d.wins (c * 64 + w) with
    | some g => !g.gather.isEmpty || !g.flushing.isEmpty
    | none => false)

/-- An ordering point: every dirty window of the Chamber is flushing (14 R558). -/
def Dev.flushAll (d : Dev) (c : Nat) : Dev := (d.dirtyWins c).foldl (fun d w => d.flushWin c w) d

/-- A flush of the Chamber failed since it was last reported (14 R558). -/
def Dev.flushFailed (d : Dev) (c : Nat) : Bool :=
  (List.range 64).any (fun w => match kget d.wins (c * 64 + w) with | some g => g.failed | none => false)

/-- The failure of a flush has been reported. -/
def Dev.clearFlushFail (d : Dev) (c : Nat) : Dev :=
  { d with wins := d.wins.map (fun e => if e.1 / 64 == c then (e.1, { e.2 with failed := false }) else e) }

/-- Removes an operation whose record is written or cannot be written; a STOPPING ring with none left stops (R257). -/
def Dev.freeOp (d : Dev) (id : Nat) (o : Op) : Dev :=
  let i := ringIx o.chamber o.ring
  let d := { d with ops := kdel d.ops id }
  if o.reply.isSome then d
  else
  let n := d.rf .CHM_RING_STS_INFLIGHT i - 1
  let d := d.wf .CHM_RING_STS_INFLIGHT i n
  if n = 0 ∧ d.rf .CHM_RING_STS_STATE i = 2 then d.wf .CHM_RING_STS_STATE i 0 else d

/-- HRSP to an HREQ: OUTCOME, X, and the completion record of DONE (11 R438). -/
def hrspMsg (q : Msg) (outcome x : Nat) (rec_ : Bytes) : Msg :=
  { homeMsg 0x55 0 2 with
      tc := q.tc, chamber := q.chamber, dst := q.src, tag := q.tag, addr := q.addr,
      args := BitVec.ofNat 64 (1 + outcome * 2 ^ 16 + x * 2 ^ 24), data := padTo 32 rec_ }

/-- Precedence of a status (R230): lower comes first. -/
def statusRank (s : Nat) : Nat :=
  match s with
  | 0x7F => 0 | 0x21 => 1 | 0x20 => 2 | 0x60 => 3 | 0x51 => 4 | 0x41 => 5 | 0x40 => 6 | 0x42 => 7 | 0x50 => 8 | 0x30 => 9
  | 0x31 => 10 | 0x02 => 11 | 0x01 => 12 | _ => 13

/-- The status that a record carries of two (R230). -/
def worseStatus (a b : Nat) : Nat := if statusRank b < statusRank a then b else a

/-- Writes the completion record of an operation that has ended, once its mirrors and its requests of other homes have been answered
and its Chamber's gathered writes are flushed; it waits where the completion ring's page faults, unless its Chamber is being aborted
(R199, R239, R243, R246, 14 R558, 17 R666). -/
def Dev.writeRecord (d : Dev) (id : Nat) : Dev :=
  match kget d.ops id with
  | none => d
  | some o =>
    match o.phase with
    | .ending r =>
      if (match o.wait with | some b => !d.cleared o.chamber o.ans b | none => false) then d
      else if d.coh.bmirs.any (fun b => b.why == .op id) || d.coh.reqs.any (fun r => r.why == .op id) then d
      else if !(d.dirtyWins o.chamber).isEmpty then d.flushAll o.chamber
      else
        let fl := d.flushFailed o.chamber
        let r := if fl && worseStatus r.status 0x50 != r.status then { r with status := 0x50, count := o.lines } else r
        let d := if fl then d.clearFlushFail o.chamber else d
        match o.reply with
        | some (p, m) => (d.freeOp id o).send (.msg p (hrspMsg m 0 0 (recBytes r false 0 d.stamp)))
        | none =>
        let i := ringIx o.chamber o.ring
        let s := d.ring i
        let k := d.rf .CHM_RING_CFG_SIZE_LOG2 i
        let phase := s.written / 2 ^ k % 2 == 0
        let at_ := d.rf .CHM_RING_CBASE_BASE i * 4096 + s.written % 2 ^ k * 32
        let w : Who := { chamber := o.chamber, rq := 98, mt := none, nfz := false, why := .op id }
        let bytes := recBytes r phase o.ring d.stamp
        let (res, es) := runEng (.op id) (eWrite w at_ bytes) d o.ans [] o.wait
        let tell (d : Dev) : Dev :=
          match o.portal with | some p => { d with portalDone := kput d.portalDone p (r, bytes) } | none => d
        match res with
        | .error (.block b start) =>
          if d.chmState o.chamber == 3 && (match b with | .fault _ | .stalled _ => true | _ => false) then tell (d.freeOp id o)
          else start (d.setOp id { o with phase := .ending r, wait := some b })
        | .error (.fail _) => tell (es.d.freeOp id o)
        | .ok _ =>
          let d := es.d.freeOp id o
          let s' := { s with written := s.written + 1, unsig := s.unsig + 1,
                             oldest := if s.unsig = 0 then d.gt else s.oldest }
          let d := (d.setRing i s')
          let d := tell { d with err.tlm.recs := d.err.tlm.recs + 1 }
          if r.sig || decide (d.rf .CHM_RING_SIG_COUNT i ≤ s'.unsig) then d.signalRing o.chamber o.ring else d
    | _ => d

/-- Ends an operation with its record (R229-R231); the record is written at once where nothing holds it. APPLIED is an ATOMIC's, or says of
a RUN that is aborted whether an atomic of it was performed (R228). -/
def Dev.endOp (d : Dev) (id status count result : Nat) : Dev :=
  match kget d.ops id with
  | none => d
  | some o =>
    let r : CRec :=
      { status := status, opcode := o.opcode, applied := o.applied && (o.opcode != 0x48 || status == 0x20), fallback := o.fallback || o.unstaged,
        poison := o.poison, tag := o.tag, count := count % 2 ^ 64, result := result % 2 ^ 64, sig := o.sig }
    let d := (d.setOp id { o with phase := .ending r, ans := [] }).unparked (.op id)
    let d := if status = 0x30 then
        d.logEvent { kind := 0x11, u := true, tag := o.chamber, detail := o.opcode } else d
    d.writeRecord id

/-- How an operation's work ended. -/
structure Done where
  status : Nat := 0
  count : Nat := 0
  result : Nat := 0
  applied : Bool := false
  fallback : Bool := false
deriving DecidableEq, Repr

/-- The operation's counters after engine work. -/
def Op.took (o : Op) (es : ES) : Op :=
  { o with lines := o.lines + es.lines, nfzLines := o.nfzLines + es.nfzLines, poison := o.poison || es.poison,
           unstaged := o.unstaged || es.unstaged, seen := es.seen, applied := o.applied || es.applied }

/-- A descriptor that the front end is fetching: no operation of its ring is admitted yet (R232, R237). -/
def Op.unfetched (o : Op) : Bool :=
  o.reply.isNone && o.body.isEmpty && (match o.phase with | .ending _ => false | _ => true)

/-- A fetch is given up: nothing was admitted, and no record is written. A Portal request that waits for the descriptor ends
ABORTED (R237, R243). -/
def Dev.dropFetch (d : Dev) (id : Nat) (o : Op) : Dev :=
  let d := { d.unparked (.op id) with
      ops := kdel d.ops id,
      coh.reqs := d.coh.reqs.map (fun r => if r.why == .op id then { r with why := .none } else r) }
  match o.portal with
  | some p =>
    let r : CRec := { status := 0x20, opcode := 0, applied := false, fallback := false, poison := false, tag := 0, count := 0,
                      result := 0, sig := false }
    if d.rf .CHM_RING_STS_HEAD (ringIx o.chamber o.ring) = o.idx ∧ d.chmState o.chamber = 1 then d
    else { d with portalDone := kput d.portalDone p (r, recBytes r false o.ring d.stamp) }
  | none => d

/-- A TABLES descriptor that has been admitted and has not ended: no descriptor of its Chamber is admitted meanwhile (10 R410). -/
def Op.isTables (o : Op) : Bool :=
  o.opcode == 0x1A && !o.body.isEmpty && (match o.phase with | .ending _ => false | _ => true)

/-- The operation may run now: ready, or what it waited for has come, and FENCE lets it (R223). -/
def Dev.mayRun (d : Dev) (id : Nat) (o : Op) : Bool :=
  (match o.phase with
   | .ready => true
   | .blocked b => d.cleared o.chamber o.ans b
   | _ => false) &&
  (!o.fence || !d.ops.any (fun e => e.1 < id && e.2.chamber == o.chamber && e.2.ring == o.ring))

/-- One turn of an operation's engine work `m`. Work that must wait changes nothing but to start what it waits for;
work that ends with a failure keeps what it has written; otherwise `k` says how the operation goes on (log 11). -/
def Dev.turn {α : Type} (d : Dev) (id : Nat) (o : Op) (m : Eng α) (k : α → Op → Dev → Dev) : Dev :=
  let (res, es) := runEng (.op id) m d o.ans o.seen o.back
  match res with
  | .ok a => k a { o.took es with phase := .ready, ans := [] } es.d
  | .error (.block b start) => start (d.setOp id { o with phase := .blocked b })
  | .error (.fail st) =>
    let o' := o.took es
    (es.d.setOp id o').endOp id st (if st = 0x21 ∨ st = 0x51 ∨ st = 0x60 then 0 else o'.lines) 0

/-- Ends an operation whose work is done (R229): OK becomes OK_PARTIAL when unmapped parts were met. -/
def Dev.finishOp (d : Dev) (id : Nat) (o : Op) (r : Done) : Dev :=
  let o := { o with applied := o.applied || r.applied, fallback := o.fallback || r.fallback }
  let part := r.status = 0 ∧ 0 < o.nfzLines
  (d.setOp id o).endOp id (if part then 1 else r.status) (if part then o.nfzLines else r.count) r.result

/-- One turn of the operation `id` with opcode `opc`: its record if it has ended, its work if it may run, nothing otherwise. -/
def Dev.runOp (d : Dev) (id opc : Nat) (go : Op → Dev → Dev) : Dev :=
  match kget d.ops id with
  | none => d
  | some o =>
    if o.opcode ≠ opc then d
    else match o.phase with
      | .ending _ => d.writeRecord id
      | _ => if d.mayRun id o then go o d else d

/-- An operation whose work is one piece of engine work. -/
def Dev.runWhole (d : Dev) (id opc : Nat) (w : Op → Eng Done) : Dev :=
  d.runOp id opc (fun o d => d.turn id o (w o) (fun r o d => d.finishOp id o r))

/-- The Chamber has work that keeps a disable waiting: operations admitted. -/
def Dev.opsOf (d : Dev) (c : Nat) : List (Nat × Op) := d.ops.filter (fun e => e.2.chamber == c)

end Sys2Proof.Machine
end

