-- ==== Sys2Proof/Machine/Journal.lean ====
section
/-!
DEFINITION. The journal of the Ledger (15 R587, R588), and how a settle that it holds is given up or reads a lent source
(07 R283-R286). The codes within the ranges of R588 follow the order in which it lists the records (log 26).
-/

namespace Sys2Proof.Machine

/-- Begins writing a journal record (R588): what is sent, and the operation that ends, when it commits. -/
def Dev.journal (d : Dev) (typ id : Nat) (payload : Bytes) (send : List Out := [])
    (fin : Option (Nat × Nat × Nat × Nat) := none) : Dev :=
  { d with led.writes := d.led.writes ++ [{ entry := { typ := typ, seq := d.led.jseq, id := id, payload := padTo 44 payload },
                                            send := send, fin := fin }],
           led.jseq := u32 (d.led.jseq + 1) }

/-- A record of the operation id is still being written. -/
def Dev.jPending (d : Dev) (id : Nat) : Bool := d.led.writes.any (fun w => w.entry.id == id)

/-- Record types that close an operation (R588). -/
def jCloses (typ : Nat) : Bool :=
  [0x02, 0x04, 0x12, 0x22, 0x23, 0x27, 0x28, 0x32, 0x34].contains typ

/-- At least 1 MiB of the journal is free (R588): records of operations not yet closed. -/
def Dev.jRoom (d : Dev) : Bool :=
  let closed := (d.led.journal.filter (fun r => jCloses r.typ)).map JRec.id
  decide (((d.led.journal.filter (fun r => !closed.contains r.id)).length + d.led.writes.length) * 64 ≤ 2 ^ 30 - 2 ^ 20)

/-- The oldest journal record being written is committed: what waited for it goes on (R588). -/
def Dev.journalCommit (d : Dev) : Dev :=
  match d.led.writes with
  | [] => d
  | w :: rest =>
    let d := { d with led.writes := rest, led.journal := d.led.journal ++ [w.entry] }
    let d := w.send.foldl (fun d o => d.send o) d
    match w.fin with
    | some (id, st, count, result) => d.endOp id st count result
    | none => d

/-- The journaled operations with an opening record of a type and no closing record, by operation id. -/
def Dev.jOpen (d : Dev) (opens : Nat) (closes : List Nat) : List JRec :=
  d.led.journal.filter (fun r => r.typ == opens &&
    !d.led.journal.any (fun q => q.id == r.id && closes.contains q.typ && decide (r.seq < q.seq)))

/-! ### Settles (07 R283-R286) -/

/-- The outcome of a recovered settle or transfer is posted in the first unused TIE_RCV_ENT (07 R286, R300): 1 rolled forward,
2 rolled back. -/
def Dev.rcvPost (d : Dev) (s : Settle) (outcome : Nat) : Dev :=
  if !s.recovered then d
  else match (List.range 64).find? (fun n => d.rf .TIE_RCV_ENT_OUTCOME n == 0) with
    | some n => (((d.wf .TIE_RCV_ENT_OUTCOME n outcome).wf .TIE_RCV_ENT_CHAMBER n s.chamber).wf .TIE_RCV_ENT_SRC n s.src).wf
        .TIE_RCV_ENT_DST n s.dst
    | none => d

/-- A settle in a journal slot is given up: the destination returns to FREE unless it is LOST, and its operation ends with a status
and COUNT 0 (07 R285). One whose destination is IMMUTABLE has reached step 3 of R283 and ends with its close record. -/
def Dev.settleBack (d : Dev) (slot status : Nat) : Dev :=
  match kget d.tier.settles slot with
  | none => d
  | some s =>
    if s.closing then d
    else
      let d := { d with tier.settles := kdel d.tier.settles slot }
      let d := if (d.extent s.dst).st = .settling then d.enterFree s.dst else d
      let d := (d.journal 0x12 s.jid (leBytes 4 2)).rcvPost s 2
      match s.op with
      | some id => d.endOp id status 0 0
      | none => d

/-- The settle of a journal operation id. -/
def Dev.settleOf (d : Dev) (jid : Nat) : Option (Nat × Settle) := d.tier.settles.find? (fun e => e.2.jid == jid && !e.2.transfer)

/-- Lines of the source and the destination at which the burst to be read next begins. -/
def Settle.at (s : Settle) : Nat × Nat :=
  (s.src * 2 ^ 22 + s.done * 2 ^ 20 + 4 * s.got, s.dst * 2 ^ 22 + s.done * 2 ^ 20 + 4 * s.got)

/-- Lines that an agent owns are recalled for the device's own read of them; a BUSY line is left to its transaction (01 R30, 04 R152). -/
def Dev.recallOwned (d : Dev) (ls : List Nat) : Dev :=
  ls.foldl (fun d l => if d.lineBusy l then d else d.openTxn l .engine true none) d

/-- An agent owns the line, or it is BUSY. -/
def Dev.lineOwned (d : Dev) (l : Nat) : Bool := d.lineBusy l || (match kget d.coh.dir l with | some e => e.st == .he | none => false)

/-- A settle of a LENT source asks its lender for the next burst of the chunk by RdOnce, once no agent owns a line of it (07 R283, 01 R30,
02 R64). -/
def Dev.settleAsk (d : Dev) (jid : Nat) : Dev :=
  match d.settleOf jid with
  | none => d
  | some (_, s) =>
    let e := d.extent s.src
    if extKind s.src ≠ .lent ∨ 4 ≤ s.done ∨ 2 ^ 18 ≤ s.got then d
    else
    let owned := ((List.range 4).map (fun i => s.at.1 + i)).filter d.lineOwned
    if !owned.isEmpty then d.recallOwned owned
    else d.askOut e.port (reqMsg 3 4 true s.chamber (e.target * 2 ^ 28 + s.at.1 % 2 ^ 22 * 64) 3 []) (.settle jid)
      (d.devnum * 2 ^ 42 + s.at.1)

/-- The lender's answer to a settle: the burst is written with its marks, and the next asked for; an answer that gives no data ends
the settle with its status (07 R280, R283, R285). -/
def Dev.settleTake (d : Dev) (jid : Nat) (a : List Ans) : Dev :=
  match d.settleOf jid with
  | none => d
  | some (slot, s) =>
    match a.find? (fun x => x.status != 0) with
    | some x => d.settleBack slot x.status
    | none =>
      let ls := a.mapIdx (fun i x => (i, x, x.poison || d.poisoned (s.at.1 + i)))
      let d := ls.foldl (fun (d : Dev) x => (d.wrMem ((s.at.2 + x.1) * 64) (padTo 64 x.2.1.data)).setPoison (s.at.2 + x.1) x.2.2) d
      let p := ls.any (fun x => x.2.2)
      let d := match s.op with
        | some id => { d with ops := kmod d.ops id (fun o => { o with poison := o.poison || p }) }
        | none => d
      ({ d with tier.settles := kput d.tier.settles slot { s with got := s.got + 1, poison := s.poison || p } }).settleAsk jid

end Sys2Proof.Machine
end

