-- ==== Sys2Proof/Machine/Tracker.lean ====
section
/-!
DEFINITION. Requests of agents, hosts and peers in tracker slots: their answers, the home's decisions on a line, the
performing of the access, and the waking of what waits (04 R134-R178, 05 R186, R195-R213).
-/

namespace Sys2Proof.Machine

/-! ### Answers -/

/-- The request is a read of lines. -/
def isRead (op : Nat) : Bool := op == 1 || op == 2 || op == 3

/-- The request writes its line: WrLine, WrPartial or Atomic (R152). -/
def isWrite (op : Nat) : Bool := op == 4 || op == 5 || op == 6

/-- An answer to request `q`: its TC, TAG and ADDR are echoed (R143, 03 R116). -/
def ansMsg (op vc : Nat) (q : Msg) : Msg :=
  { homeMsg op 0 vc with tc := q.tc, af := q.af, chamber := q.chamber, dst := q.src, tag := q.tag, addr := q.addr }

/-- Ack with a STATUS, and WPROT (R145). -/
def ackMsg (q : Msg) (status : Nat) (wprot : Bool) : Msg :=
  { ansMsg 0x26 2 q with status := BitVec.ofNat 8 status, args := BitVec.ofNat 64 (b2n wprot) }

/-- Data or PoisonData with STATE and the lines' marks (R145). -/
def dataMsg (q : Msg) (st : Nat) (ls : List (Bytes × Bool)) : Msg :=
  let pm := maskOf ((List.range ls.length).filter (fun i => ((ls[i]?).map Prod.snd).getD false))
  { ansMsg (if pm = 0 then 0x24 else 0x25) 3 q with
      args := BitVec.ofNat 64 (st + 4 * (ls.length - 1) + 256 * pm), data := (ls.map Prod.fst).flatten }

/-- SHORT Data or PoisonData with the old value of an Atomic (R145, 16 R624). -/
def shortMsg (q : Msg) (old : Nat) (poison : Bool) : Msg :=
  { ansMsg (if poison then 0x25 else 0x24) 3 q with
      args := BitVec.ofNat 64 (16 + 256 * b2n poison), data := padTo 32 (leBytes 16 old) }

/-- An answer that gives tracked copies names their lines as the request did (log 110). -/
def Dev.named (d : Dev) (sl : Slot) (m : Msg) : Dev :=
  let copy : Bool := m.opc = 0x23 || ((m.opc = 0x24 || m.opc = 0x25) && m.args.toNat % 4 != 0 && !bit m.args.toNat 4)
  let a : Nat := match sl.cxl with | some q => q.hpa.toNat | none => sl.msg.addr.toNat
  let line : Nat := if sl.phase = .forward then sl.pa / 64 else d.devnum * 2 ^ 42 + sl.pa / 64 % 2 ^ 42
  let own := (sl.msg.src.toNat, line)
  /- what a host's forwarded request leaves it as the owner of: an uncached read or a write of its own frees the entry (R152, R178) -/
  let d := if sl.cxl.isSome && sl.phase = .forward then
      { d with coh.owned := d.coh.owned.filter (fun x => x != own) ++ (if copy && m.args.toNat % 4 = 2 then [own] else []) } else d
  if copy && !sl.msg.af then
    (List.range (max 1 (m.data.length / 64))).foldl (fun d i =>
      d.giveName sl.msg.src.toNat (line + i) (false, sl.msg.chamber.toNat, a / 64 * 64 + 64 * i)) d
  else d

/-- Sends an answer toward the requester of a slot; a CXL host gets its own form (R178, 06 R221). -/
def Dev.answer (d : Dev) (sl : Slot) (m : Msg) : Dev :=
  let d := d.named sl m
  match sl.cxl with
  | none => d.send (.msg sl.port m)
  | some q =>
    let a := q.hpa.toNat / 64 * 64
    let tag := q.tag.toNat
    if isRead sl.msg.opc then
      match m.opc with
      | 0x24 => d.send (.cxl sl.port .data tag a (m.args.toNat % 4 == 2) m.data)
      | 0x23 => d.send (.cxl sl.port .data tag a (m.args.toNat % 4 == 2) m.data)
      | _ => d.send (.cxl sl.port .poisoned tag a false m.data)
    else d.send (.cxl sl.port .cmp tag a false [])

/-- The agent or host id of a slot's requester. -/
def Slot.who (sl : Slot) : Nat := sl.msg.src.toNat

/-- Chamber of a slot's request. -/
def Slot.chamber (sl : Slot) : Nat := sl.msg.chamber.toNat

/-- The local line of a slot's request, and how many lines. -/
def Slot.line (sl : Slot) : Nat := sl.pa % 2 ^ 48 / 64
def Slot.nlines (sl : Slot) : Nat := msgLines sl.msg

/-- The source of a slot's access, as the access counters tell them apart: 0 Mortar agents, 1 CXL hosts, 2 engines (08 R329). -/
def Dev.slotSrc (d : Dev) (sl : Slot) : Nat := if sl.eng then 2 else if sl.src == .cxl || d.coh.hosts.contains sl.who then 1 else 0

/-- The slot's lines. -/
def Slot.lines (sl : Slot) : List Nat := (List.range sl.nlines).map (fun i => sl.line + i)

def Dev.slot (d : Dev) (id : Nat) : Option Slot := kget d.coh.slots id
def Dev.setSlot (d : Dev) (id : Nat) (sl : Slot) : Dev := { d with coh.slots := kput d.coh.slots id sl }

/-- A slot starts to wait, for one of the causes whose time R167 sums. -/
def Dev.waitSlot (d : Dev) (id : Nat) (sl : Slot) (p : Phase) : Dev :=
  d.setSlot id { sl with phase := p, since := d.gt }

/-- A slot goes on after a wait that R167 sums. -/
def Slot.resumed (sl : Slot) (gt : Nat) (p : Phase) : Slot := { sl with phase := p, waited := sl.waited + (gt - sl.since) }

/-- Frees a slot and ends the transactions that it held on lines. -/
def Dev.freeSlot (d : Dev) (id : Nat) : Dev :=
  { d with coh.slots := kdel d.coh.slots id,
           coh.txns := d.coh.txns.filter (fun e => e.2.why != .slot id && e.2.why != .lock (.slot id)) }

/-- Answers a request and frees its slot. -/
def Dev.finish (d : Dev) (id : Nat) (sl : Slot) (m : Msg) : Dev := (d.answer sl m).freeSlot id

/-- Ends a request with Ack and a STATUS. -/
def Dev.finishAck (d : Dev) (id : Nat) (sl : Slot) (status : Nat) : Dev := d.finish id sl (ackMsg sl.msg status false)

/-- Ends a request as a failed Chamber check: counted, logged, Ack MALFORMED (06 R221, R222, 16 R637). -/
def Dev.finishCheck (d : Dev) (id : Nat) (sl : Slot) : Dev :=
  let (form, addr) := match sl.cxl with
    | some q => (2, q.hpa.toNat)
    | none => (if sl.msg.af then 0 else 1, sl.msg.addr.toNat)
  (d.failCheck sl.chamber form addr sl.msg.opc sl.who).finishAck id sl 0x7F

/-- Reads with no data: PoisonData for every line. -/
def Dev.finishPoison (d : Dev) (id : Nat) (sl : Slot) : Dev :=
  d.finish id sl (dataMsg sl.msg 0 (sl.lines.map (fun l => (leBytes 64 (Config.poisonLine l 0), true))))

/-- A request that waits, or would wait, on a fault, promotion or gateway fetch of a Chamber being aborted ends ABORTED (06 R243). -/
def Dev.abortSlot (d : Dev) (id : Nat) (sl : Slot) : Dev :=
  if sl.cxl.isSome && isRead sl.msg.opc then d.finishPoison id sl else d.finishAck id sl 0x20

/-- A link or agent breaks the protocol: a PROTOCOL entry (16 R636). -/
def Dev.logProtocol (d : Dev) (port : Nat) (m : Msg) : Dev :=
  d.logEvent { kind := 9, u := false, aform := if m.af then 0 else 1, tag := m.chamber.toNat, unit := port,
               agent := m.src.toNat, detail := m.opc, addr := m.addr.toNat }

/-! ### Retry (R162-R165) -/

/-- A ticket number not held by a live reservation, from `n` on. -/
def nextTicket (m : Map Ticket) (n : Nat) : Nat → Nat
  | 0 => n
  | fuel + 1 => if (kget m n).isSome then nextTicket m ((n + 1) % 2 ^ 16) fuel else n

/-- R165: a request of the requester for one of the lines, of an earlier arrival, was answered Retry and is not yet sent again. -/
def Dev.retryBlocked (d : Dev) (src line n arr : Nat) : Bool :=
  d.coh.blocks.any (fun b => b.1 == src && decide (line ≤ b.2.1 ∧ b.2.1 < line + n) &&
    (match kget d.coh.tickets b.2.2 with | some t => decide (t.arr < arr) | none => false))

/-- Answers Retry RESEND with a new ticket (R162, R165); with 65,535 reservations live the request waits at its port. -/
def Dev.retry (d : Dev) (port : Nat) (m : Msg) (line arr : Nat) : Dev :=
  if 65535 ≤ d.coh.tickets.length then { d with coh.withheld := d.coh.withheld ++ [(port, m, none)] }
  else
    let d := d.tick
    let t := nextTicket d.coh.tickets d.coh.nextTicket 65536
    let tk : Ticket := { src := m.src.toNat, vc := m.vc.toNat, tag := m.tag.toNat, op := m.opc, line := line,
                         n := msgLines m, port := port, seq := d.coh.clock, arr := arr }
    let new := ((List.range (msgLines m)).map (fun i => line + i)).filter (fun l =>
      !d.coh.blocks.any (fun b => b.1 == m.src.toNat && b.2.1 == l))
    let d := { d with coh.tickets := kput d.coh.tickets t tk, coh.nextTicket := (t + 1) % 2 ^ 16,
                      coh.blocks := d.coh.blocks ++ new.map (fun l => (m.src.toNat, l, t)) }
    (d.bump .MRT_CNT_RETRY).send (.msg port { ansMsg 0x22 2 m with xtag := BitVec.ofNat 16 t })

/-- The live ticket that a resend names, when it matches its requester, channel and TAG (R163, R164). -/
def Dev.ticketOf (d : Dev) (m : Msg) : Option Ticket :=
  if m.rsv then
    match kget d.coh.tickets m.xtag.toNat with
    | some t => if t.src = m.src.toNat ∧ t.vc = m.vc.toNat ∧ t.tag = m.tag.toNat then some t else none
    | none => none
  else none

/-- A ticket ends: by use or by expiry; a block that began with it ends too (R165). -/
def Dev.endTicket (d : Dev) (t : Nat) : Dev :=
  { d with coh.tickets := kdel d.coh.tickets t, coh.blocks := d.coh.blocks.filter (fun b => b.2.2 != t) }

/-! ### The home's decision on a request -/

/-- Lines that a message names, by its own address: the first and how many (R145). -/
def msgSpan (m : Msg) : Nat × Nat := (m.addr.toNat / 64, if m.opc = 7 then m.args.toNat % 2 ^ 32 else msgLines m)

/-- Two requests name a line alike: in the same form, Chamber and address (R195). -/
def sameName (a b : Msg) : Bool :=
  let x := msgSpan a
  let y := msgSpan b
  a.af == b.af && a.chamber == b.chamber && decide (x.1 < y.1 + y.2 ∧ y.1 < x.1 + x.2)

/-- The request has not reached its line: it is not translated, is held before stage 4, or waits for its turn on the line (R195). -/
def Phase.early : Phase → Bool
  | .walk .. | .fault _ | .stalled _ | .order | .held _ | .turn | .lineBusy _ => true
  | _ => false

/-- Two translated requests name a line alike. -/
def samePa (a b : Slot) : Bool :=
  decide (a.pa < 2 ^ 56 ∧ b.pa < 2 ^ 56 ∧ a.pa / 64 < b.pa / 64 + msgLines b.msg ∧ b.pa / 64 < a.pa / 64 + msgLines a.msg)

/-- An earlier access of the slot's requester to a line that it names has not reached the line (R195, log 118). -/
def Dev.passes (d : Dev) (sl : Slot) : Bool :=
  d.coh.slots.any (fun e => e.2.who == sl.who && decide (e.2.arr < sl.arr) && e.2.phase.early && e.2.msg.opc != 8 &&
    (sameName e.2.msg sl.msg || samePa e.2 sl))

/-- An earlier Sweep of the slot's requester has still to see to the line (R195). -/
def Dev.underSweep (d : Dev) (sl : Slot) (l : Nat) : Bool :=
  d.coh.slots.any (fun e => e.2.who == sl.who && decide (e.2.arr < sl.arr) && e.2.phase == .sweep && e.2.todo.contains l)

/-- The first of the lines that the slot cannot take now, and whether it is BUSY: by another's transaction or an engine that came
first (R154); else one that another slot is serving, or that an earlier access of the same requester must reach first (R195). -/
def Dev.conflict (d : Dev) (id : Nat) (ls : List Nat) : Option (Nat × Bool) :=
  match d.slot id with
  | none => none
  | some sl =>
    match ls.find? (fun l => (match kget d.coh.txns l with
        | some t => t.why != .slot id && t.why != .lock (.slot id)
        | none => false) || d.engineAhead l sl.seq) with
    | some l => some (l, true)
    | none =>
      if d.passes sl then ls.head?.map (fun l => (l, false))
      else (ls.find? (fun l => d.underSweep sl l || d.coh.slots.any (fun e => e.1 != id && e.2.pa / 2 ^ 48 == d.devnum &&
        (isRead e.2.msg.opc || isWrite e.2.msg.opc) && e.2.phase.serves (isWrite sl.msg.opc || e.2.who == sl.who) &&
        e.2.lines.contains l))).map (fun l => (l, false))

/-- What the directory demands before the request of agent `q` on a line is served, and what it then holds. -/
inductive DirGo where
  /-- serve; give the requester this state -/
  | serve (give : Option DirState) (state : Nat)
  /-- Grant exclusive without data -/
  | grant
  /-- recall or invalidate first -/
  | snoop (toShared : Bool) (except : Option Nat)
deriving DecidableEq, Repr

/-- R138, R152, R153 for a request with opcode `op` under class `cls`. `uncached` marks requesters that keep no copy. -/
def dirGo (ent : Option DirEnt) (cls : Cls) (op q : Nat) (uncached : Bool) : DirGo :=
  let op := if uncached && (op == 1 || op == 2) then 3 else op
  match ent with
  | none =>
    match cls, op with
    | .held, 1 => .serve (some .hs) 1
    | .held, 2 => .serve (some .he) 2
    | .sharedRead, 1 => .serve (some .rs) 1
    | .sharedRead, 2 => .serve (some .rs) 1
    | _, _ => .serve none 0
  | some e =>
    if e.cls ≠ cls then .snoop false none
    else match e.st with
      | .rs => if op = 1 ∨ op = 2 then .serve (some .rs) 1 else .serve none 0
      | .hs =>
        let others := e.coarse || e.holders.any (fun h => h != q)
        if op = 1 then .serve (some .hs) 1
        else if op = 2 then
          if others then .snoop false (some q)
          else if e.holders.contains q then .grant else .serve (some .he) 2
        else if op = 3 then .serve none 0
        else if others then .snoop false (some q) else .serve none 0
      | .he =>
        if e.holders.contains q then
          if op = 2 then .grant else if op = 1 then .serve (some .hs) 1 else .serve none 0
        else if op = 1 ∨ op = 3 then .snoop true none else .snoop false none

/-- The entry after the request is served (R152): a write or an owner's own RdOnce leaves a Held line free. -/
def Dev.dirAfter (d : Dev) (line q op : Nat) (cls : Cls) (give : Option DirState) : Dev :=
  match give with
  | some st => d.dirGive line q cls st
  | none =>
    match kget d.coh.dir line with
    | none => d
    | some e =>
      if cls = .sharedRead then d
      else if isWrite op then { d with coh.dir := kdel d.coh.dir line }
      else if e.st = .he then { d with coh.dir := kdel d.coh.dir line }
      else d

/-- Sends the home's request for lent lines to the lender (02 R64, 04 R176): RdOnce for reads and atomics, WrLine or
WrPartial for writes. -/
def Dev.askLender (d : Dev) (id : Nat) (sl : Slot) : Dev :=
  let e := d.extent (lineExt sl.line)
  let addr := e.target * 2 ^ 28 + sl.line % 2 ^ 22 * 64
  let key := d.devnum * 2 ^ 42 + sl.line
  let c := sl.chamber
  let m := match sl.msg.opc with
    | 4 => reqMsg 4 5 true c addr (sl.nlines - 1) sl.msg.data
    | 5 => reqMsg 5 5 true c addr sl.msg.args.toNat sl.msg.data
    | _ => reqMsg 3 4 true c addr (sl.nlines - 1) []
  (d.waitSlot id sl .lender).askOut e.port m (.slot id) key

/-- Wanted blocks of a request: the whole page for agents and hosts, the blocks touched for an engine of a peer (07 R273). -/
def Slot.want (sl : Slot) : Nat := if sl.eng then blockMask (sl.line % 1024) sl.nlines else 0xFFFF

/-- Stage 6 for a slot whose lines the directory lets it serve (07 R268, R287). -/
def Dev.slotTier (d : Dev) (id : Nat) (sl : Slot) : Dev :=
  if extKind (lineExt sl.line) = .lent then d.askLender id sl
  else
    let w := isWrite sl.msg.opc
    let (d, go) := d.tierGo sl.chamber sl.line w sl.t0s sl.want
    match go with
    | .ready => d.setSlot id { sl with phase := .tier }
    | .unstaged => (d.setSlot id { sl with phase := .tier, ans := [] }).unstagedRead (.slot id) sl.line
    | .wait pg =>
      if d.chmState sl.chamber = 3 then d.abortSlot id sl else
      /- while a write waits for its page, reads of its lines are served (07 R269) -/
      let d := if w then { d with coh.txns := d.coh.txns.filter (fun e => e.2.why != .slot id) } else d
      d.waitSlot id sl (.page pg)
    | .short =>
      match sl.cxl with
      | some q => (d.logEvent { kind := 0x14, u := true, aform := 2, tag := sl.chamber, unit := sl.port,
                                agent := sl.who, detail := sl.msg.opc, addr := q.hpa.toNat }).finishAck id sl 0x42
      | none => d.finishAck id sl 0x42

/-- A window line asked for by an agent, host or peer (14 R556, R557, R561). -/
def Dev.slotGateway (d : Dev) (id : Nat) (sl : Slot) : Dev :=
  let win := (d.extent (lineExt sl.line)).port
  let c := sl.chamber
  if isRead sl.msg.opc then
    let rs := sl.lines.map (fun l => d.winRead c win l)
    if rs.all Option.isSome then d.finish id sl (dataMsg sl.msg 0 (rs.filterMap (fun x => x)))
    else
      if d.chmState c = 3 then d.abortSlot id sl else
      match sl.phase with
      | .gateway => d.fetchGran c win (sl.line / 1024)
      | _ => (d.waitSlot id sl .gateway).fetchGran c win (sl.line / 1024)
  else if sl.msg.opc = 6 then d.finishAck id sl 0x7F
  else if !d.winUp c win then
    (d.logEvent { kind := 0x0F, u := true, aform := 0, tag := c, agent := sl.who, detail := sl.nlines,
                  addr := d.paOf sl.line }).finishAck id sl 0x50
  else
    let poison := match sl.cxl with | some q => q.poison | none => false
    let full := !sl.lines.all (fun l => (d.winWrite c win l fullMask []).2)
    if full then if d.chmState c = 3 then d.abortSlot id sl else (match sl.phase with | .gateway => d | _ => d.waitSlot id sl .gateway)
    else if poison then
      (d.logEvent { kind := 0x0F, u := true, aform := 0, tag := c, agent := sl.who, detail := 1,
                    addr := d.paOf sl.line }).finishAck id sl 0
    else
      let mask := if sl.msg.opc = 5 then sl.msg.args.toNat else fullMask
      let d := (List.range sl.nlines).foldl (fun d i =>
        (d.winWrite c win (sl.line + i) mask ((sl.msg.data.drop (64 * i)).take 64)).1) d
      d.finishAck id sl 0

/-- A host's request through an HDM-DB window met a Shared-read page (R139). -/
def Dev.refuseDb (d : Dev) (id : Nat) (sl : Slot) : Dev :=
  let d := d.logProtocol sl.port sl.msg
  if isWrite sl.msg.opc then d.finishAck id sl 0 else d.finishPoison id sl

/-- A line's directory entry as its request meets it; none where no listed agent can hold a copy but the requester that is spared. -/
def Dev.entryFor (d : Dev) (line : Nat) (except : Option Nat) : Option DirEnt :=
  (kget d.coh.dir line).filter (fun e => !e.coarse || (d.holdersOf e).any (fun a => some a != except))

/-- Stages 4 to 6 for a request at its home (R57, R138, R152-R154, R161). A line that another request holds, or that
is BUSY, makes a new agent's request Retry and every other wait in its slot. -/
def Dev.homeEval (d : Dev) (id : Nat) : Dev :=
  match d.slot id with
  | none => d
  | some sl =>
    let c := sl.chamber
    let op := sl.msg.opc
    let n := lineExt sl.line
    let via := match d.route sl.pa with | .standin => true | _ => false
    /- an access that has passed stage 4 completes under the state that it met (R59, R60, 17 R676) -/
    match (if sl.passed then .ok else d.stage4 c n (isWrite op) via) with
    | .check => d.finishCheck id sl
    | .revoked => d.finishAck id sl 0x40
    | .held => match sl.phase with | .held _ => d | _ => d.waitSlot id sl (.held n)
    | .lost =>
      let d := d.logLost c sl.line (isWrite op) sl.who
      if isWrite op then d.finishAck id sl 0x30 else d.finishPoison id sl
    | .wprot =>
      if sl.src = .peer then d.finish id sl (ackMsg sl.msg 0x7F true)
      else if d.chmState c = 3 then d.abortSlot id sl
      else
        let page := sl.msg.addr.toNat % 2 ^ 52 / 65536
        let room := d.recRoom c || d.hasRec c page
        (d.waitSlot id sl (if room then .fault page else .stalled page)).fault c page 2 sl.level (100 + sl.port) true
    | .ok =>
      let sl := { sl with passed := true }
      let d := d.setSlot id sl
      if sl.db && sl.cls == .sharedRead then d.refuseDb id sl
      else if extKind n = .remote then if d.passes sl then d.setSlot id { sl with phase := .lineBusy sl.line } else d.slotGateway id sl
      else
        let fresh := sl.src != .cxl && sl.ticket == 0
        if fresh && d.retryBlocked sl.who sl.line sl.nlines sl.arr then (d.retry sl.port sl.msg sl.line sl.arr).freeSlot id
        else match d.conflict id sl.lines with
        | some (l, busy) =>
          if busy && fresh then (d.retry sl.port sl.msg sl.line sl.arr).freeSlot id
          else d.setSlot id { sl with phase := .lineBusy l }
        | none =>
          let q := sl.who
          let stale := sl.lines.filter (fun l => (kget d.coh.dir l).isSome && (d.entryFor l (some q)).isNone)
          let d := { d with coh.dir := d.coh.dir.filter (fun e => !stale.contains e.1) }
          let gos := sl.lines.map (fun l => (l, dirGo (kget d.coh.dir l) sl.cls op q via))
          match gos.find? (fun g => match g.2 with | .snoop .. => true | _ => false) with
          | some (l, .snoop toShared except) =>
            (d.setSlot id { sl with phase := .snoop }).openTxn l (.slot id) toShared except
          | _ =>
            let wantWay := gos.any (fun g => match g.2 with | .serve (some _) _ => true | _ => false)
            match (if wantWay then d.findWay sl.line else .free) with
            | .victim v =>
              let d := d.setSlot id { sl with phase := .lineBusy v }
              (d.openTxn v (.victim id) false none).bump .DIR_CNT_EVICT (lineSlice v)
            | .wait l => d.setSlot id { sl with phase := .lineBusy l }
            | .allBusy =>
              if fresh then (d.retry sl.port sl.msg sl.line sl.arr).freeSlot id
              else d.setSlot id { sl with phase := .lineBusy ((d.setEntries sl.line).headD (0, ⟨.held, .hs, false, [], 0, 0⟩)).1 }
            | .free =>
              match gos with
              | [(l, .grant)] =>
                let d := (d.dirGive l q sl.cls .he).countAccess l (d.slotSrc sl)
                d.finish id sl { ansMsg 0x23 2 sl.msg with args := 2 }
              | _ =>
                let d := gos.foldl (fun d g => match g.2 with
                  | .serve give _ => d.dirAfter g.1 q op sl.cls give
                  | _ => d) d
                let st := match gos with | (_, .serve _ s) :: _ => s | _ => 0
                d.slotTier id { sl with give := st }

/-! ### Performing an access (R186) -/

/-- A write of a T1 or T2 line finds its promotion frame no more: it was reclaimed since stage 6 (07 R261, R268). -/
def Dev.frameGone (d : Dev) (sl : Slot) : Bool :=
  match extKind (lineExt sl.line) with
  | .t1 | .t2 => isWrite sl.msg.opc && sl.lines.any (fun l => match frameOf d.tier.promo (l / 1024) with
      | some (_, fr) => fr.st == .filling || !frameHas fr l
      | none => true)
  | _ => false

/-- Performs a slot's access at the home and answers it; `errs` are the errors that the line decoder met (16 R619). -/
def Dev.perform (d : Dev) (id : Nat) (errs : List LineErr) : Dev :=
  match d.slot id with
  | none => d
  | some sl =>
    if d.frameGone sl then d.slotTier id sl
    /- its unstaged read is still out (07 R287) -/
    else if d.unstagedOut (.slot id) sl.line then d
    else
    let op := sl.msg.opc
    let d := d.countAccess sl.line (d.slotSrc sl)
    let bad := sl.ans.any (fun a => a.line == unstagedKey sl.line && a.poison)
    let syms (l : Nat) : List (Fin 36) := ((errs.find? (fun e => e.line == l)).map LineErr.syms).getD []
    let decode (d : Dev) : Dev := sl.lines.foldl (fun d l => d.decodeLine l (syms l) sl.chamber false) d
    let poison := match sl.cxl with | some q => q.poison | none => false
    let why : ReqFor := .slot id
    /- an acknowledged write waits for its mirror (17 R666) -/
    let done (d : Dev) (m : Msg) : Dev :=
      if d.coh.bmirs.any (fun b => b.why == why) then
        d.setSlot id { sl with phase := .mirror, ans := [{ line := sl.line, write := true, status := m.status.toNat,
                                                             data := m.data, poison := false, wprot := false }] }
      else d.finish id sl m
    if isRead op then
      let d := (decode d).countBytes sl.line (64 * sl.nlines) false
      d.finish id sl (dataMsg sl.msg (sl.give) (sl.lines.map (fun l =>
        if bad then (leBytes 64 (Config.poisonLine l 0), true) else d.rdLine l)))
    else if op = 4 then
      let d := (List.range sl.nlines).foldl (fun d i =>
        d.homeWrite (sl.line + i) fullMask ((sl.msg.data.drop (64 * i)).take 64) poison why) d
      done d (ackMsg sl.msg 0 false)
    else if op = 5 then
      let d := if sl.msg.args.toNat = fullMask then d else decode d
      done (d.homeWrite sl.line sl.msg.args.toNat sl.msg.data poison why) (ackMsg sl.msg 0 false)
    else
      let a := sl.msg.args.toNat
      let n := (atomicBytes (bits a 4 3)).getD 4
      let noret := bit a 7
      let d := decode d
      let (b, p) := d.rdLine sl.line
      if p then
        d.finish id sl (if noret then ackMsg sl.msg 0x30 false else shortMsg sl.msg (Config.poisonLine sl.line 0) true)
      else
        let off := sl.msg.addr.toNat % 64
        let m := field b off n
        let v := field sl.msg.data 0 n
        let s := field sl.msg.data 16 n
        let d := d.homeWrite sl.line ((2 ^ n - 1) * 2 ^ off) (zeros off ++ leBytes n (atomicVal (a % 16) n m v s)) false why
        done d (if noret then ackMsg sl.msg 0 false else shortMsg sl.msg m false)

/-- A slot that waited for a page goes on: from the frame, or as for a LOST extent. -/
def Dev.slotPage (d : Dev) (id : Nat) : Dev :=
  match d.slot id with
  | none => d
  | some sl =>
    let sl := sl.resumed d.gt .tier
    if d.extDead (lineExt sl.line) then
      let d := d.logLost sl.chamber sl.line (isWrite sl.msg.opc) sl.who
      if isWrite sl.msg.opc then d.finishAck id sl 0x30 else d.finishPoison id sl
    else
      /- lines that others read while a write waited are looked up again (07 R269, R153) -/
      let d := if isWrite sl.msg.opc then (d.setSlot id sl).homeEval id else (d.setSlot id sl).slotTier id sl
      match d.slot id with
      | some s => if s.phase = .tier then d.perform id [] else d
      | none => d

/-- The request that waited for a line in service now meets a BUSY one: it is answered with Retry, as a new request is (R154). -/
def Dev.mustRetry (d : Dev) (id : Nat) (sl : Slot) : Bool :=
  sl.src != .cxl && sl.ticket == 0 && (match d.conflict id sl.lines with | some (_, busy) => busy | none => false)

/-- Waiting requests whose line has come free, or whose page is no longer filled, go on in arrival order, or ticket order for resends
(R154, R163, 07 R269). -/
def Dev.wake (d : Dev) : Nat → Dev
  | 0 => d
  | fuel + 1 =>
    let ready := d.coh.slots.filter (fun e => match e.2.phase with
      | .lineBusy l => (d.conflict e.1 (l :: e.2.lines)).isNone || d.mustRetry e.1 e.2
      | .page pg => !d.pageFilling pg
      | .held n => !d.extHeld n
      | .gateway =>
        let win := (d.extent (lineExt e.2.line)).port
        e.2.lines.all (fun l =>
          if isRead e.2.msg.opc then (d.winRead e.2.chamber win l).isSome
          else !d.winUp e.2.chamber win || (d.winWrite e.2.chamber win l fullMask []).2)
      | _ => false)
    match ready.foldl (fun (b : Option (Nat × Slot)) e => match b with
        | none => some e
        | some x => if e.2.seq < x.2.seq then some e else some x) none with
    | none => d
    | some (id, sl) =>
      let d := match sl.phase with
        | .page _ => d.slotPage id
        | .held _ => (d.setSlot id (sl.resumed d.gt (.lineBusy sl.line))).homeEval id
        | .gateway => (d.setSlot id (sl.resumed d.gt .gateway)).homeEval id
        | _ => d.homeEval id
      Dev.wake d fuel

/-- Wakes what can go on. -/
def Dev.wakeAll (d : Dev) : Dev := d.wake (d.coh.slots.length + 1)

/-- The lender has answered a slot's request: the access is performed with what it answered (02 R64, R176). -/
def Dev.lenderDone (d : Dev) (id : Nat) (sl : Slot) (a : Ans) (marks : List Bool) : Dev :=
  let op := sl.msg.opc
  if a.status = 0x50 then
    if isRead op then d.finishPoison id sl else d.finishAck id sl 0x50
  else if a.status ≠ 0 ∧ a.write = false then d.finishAck id sl a.status
  else if isRead op then
    let ls := (List.range sl.nlines).map (fun i =>
      ((a.data.drop (64 * i)).take 64, (marks[i]?).getD false || d.poisoned (sl.line + i)))
    d.finish id sl (dataMsg sl.msg (sl.give) ls)
  else if op = 6 then
    if a.write then
      match sl.ans with
      | x :: _ =>
        let n := (atomicBytes (bits sl.msg.args.toNat 4 3)).getD 4
        let m := field x.data (sl.msg.addr.toNat % 64) n
        d.finish id sl (if bit sl.msg.args.toNat 7 then ackMsg sl.msg a.status false else shortMsg sl.msg m false)
      | [] => d.finishAck id sl a.status
    else if a.poison || d.poisoned sl.line then
      d.finish id sl (if bit sl.msg.args.toNat 7 then ackMsg sl.msg 0x30 false
        else shortMsg sl.msg (Config.poisonLine sl.line 0) true)
    else
      let g := sl.msg.args.toNat
      let n := (atomicBytes (bits g 4 3)).getD 4
      let off := sl.msg.addr.toNat % 64
      let m := field a.data off n
      let new := atomicVal (g % 16) n m (field sl.msg.data 0 n) (field sl.msg.data 16 n)
      let e := d.extent (lineExt sl.line)
      let addr := e.target * 2 ^ 28 + sl.line % 2 ^ 22 * 64
      let d := { d with coh.txns := kput d.coh.txns sl.line { why := .lock (.slot id), open_ := [], kept := [], poisoned := false } }
      (d.setSlot id { sl with ans := [a] }).askOut e.port
        (reqMsg 5 5 true sl.chamber addr ((2 ^ n - 1) * 2 ^ off) (padTo 64 (zeros off ++ leBytes n new))) (.slot id)
        (d.devnum * 2 ^ 42 + sl.line)
  else
    let poison := match sl.cxl with | some q => q.poison | none => false
    let full := op = 4 ∨ sl.msg.args.toNat = fullMask
    let d := sl.lines.foldl (fun d l => if full then d.setPoison l poison else if poison then d.poison l else d) d
    d.finishAck id sl a.status

/-! ### The end of a transaction on a line -/

/-- The Sweep's lines homed here are so many that a scan of the sets serves them (R159). -/
def Dev.bigSweep (d : Dev) (sl : Slot) : Bool :=
  decide (1024 < ((sl.spans.filter (fun x => (d.localLine x.1).isSome)).map (fun x => x.2.1)).sum)

/-- A Sweep goes on (R158, R159): one of up to 1,024 lines takes them one at a time in rising order, each once the line before it has
been taken, and does not wait for that line's answers (DEDUCED, log 138); a larger one takes all that it meets. A tracked line that is
not BUSY is snooped; an untracked one is done. It follows its requester's earlier accesses (R195). -/
def Dev.sweepGo (d : Dev) (id : Nat) : Dev :=
  match d.slot id with
  | none => d
  | some sl =>
    if sl.phase ≠ .sweep || d.passes sl then d
    else
      let waits (l : Nat) : Bool := d.lineBusy l || d.lineServing l
      let snoop (d : Dev) (l : Nat) : Dev := if (kget d.coh.dir l).isSome then d.openTxn l (.sweep id) false none else d
      let now := if d.bigSweep sl then sl.todo.filter (fun l => !waits l) else sl.todo.takeWhile (fun l => !waits l)
      let left := if d.bigSweep sl then sl.todo.filter waits else sl.todo.dropWhile (fun l => !waits l)
      let d := now.foldl snoop d
      let d := d.setSlot id { sl with todo := left }
      if left.isEmpty && !d.coh.txns.any (fun e => e.2.why == .sweep id) && !sl.scan && sl.parts == 0 then
        d.finishAck id sl (if sl.timedOut then 0x50 else 0)
      else d

/-- Every Sweep in progress goes on. -/
def Dev.sweepsGo (d : Dev) : Dev :=
  (d.coh.slots.filter (fun e => e.2.phase == .sweep)).foldl (fun d e => d.sweepGo e.1) d

/-- Every snoop of a transaction is answered or has timed out: the entry takes what was kept, and the request, Sweep
or victim that opened it goes on (R150, R152, R154, R161). -/
def Dev.endTxn (d : Dev) (line : Nat) : Dev :=
  match kget d.coh.txns line with
  | none => d
  | some t =>
    let spared := match t.why with
      | .slot id => (d.slot id).bind (fun sl =>
          if (sl.msg.opc = 2 ∨ isWrite sl.msg.opc) ∧ (kget d.coh.dir line).map DirEnt.cls = some sl.cls then some sl.who else none)
      | _ => none
    let d := d.settleDir line t spared
    match t.why with
    | .scan => { d with coh.txns := kdel d.coh.txns line, coh.dir := kdel d.coh.dir line }
    | .revoke => { d with coh.txns := kdel d.coh.txns line, coh.dir := kdel d.coh.dir line }
    | .slot id => { d with coh.txns := kput d.coh.txns line { t with open_ := [], kept := [] } }.homeEval id
    | _ => { d with coh.txns := kdel d.coh.txns line }

/-- After snoops have been answered: ends what can end, then wakes Sweeps and waiting requests. -/
def Dev.afterSnoop (d : Dev) (line : Nat) : Dev :=
  let d := match kget d.coh.txns line with
    | some t => if t.open_.isEmpty then d.endTxn line else d
    | none => d
  d.sweepsGo.wakeAll

end Sys2Proof.Machine
end

