-- ==== Sys2Proof/Machine/Wire.lean ====
section
/-!
DEFINITION. A Mortar message in its 32-byte slots: the header slot and the data slots (03 R90, 04 R143-R146).
-/

namespace Sys2Proof.Machine

/-- The header slot of a message (R143). -/
def msgHeader (m : Msg) : Bytes :=
  leBytes 1 m.op.toNat ++
  leBytes 1 (m.tc.toNat + 8 * b2n m.af + 16 * m.vc.toNat + 64 * b2n m.rsv + 128 * b2n m.cls) ++
  leBytes 1 (m.chamber.toNat + 16 * b2n m.t0s + 32 * b2n m.eng) ++
  leBytes 1 m.status.toNat ++ leBytes 2 m.src.toNat ++ leBytes 2 m.dst.toNat ++
  leBytes 4 m.tag.toNat ++ leBytes 4 m.xtag.toNat ++ leBytes 8 m.addr.toNat ++ leBytes 8 m.args.toNat

/-- The message that a header slot opens, with its data still to come (R143). -/
def parseHeader (h : Bytes) : Msg :=
  let b1 := field h 1 1
  let b2 := field h 2 1
  { op := BitVec.ofNat 8 (field h 0 1), tc := BitVec.ofNat 3 b1, af := bit b1 3, vc := BitVec.ofNat 2 (b1 / 16),
    rsv := bit b1 6, cls := bit b1 7, chamber := BitVec.ofNat 4 b2, t0s := bit b2 4, eng := bit b2 5,
    status := BitVec.ofNat 8 (field h 3 1), src := BitVec.ofNat 16 (field h 4 2), dst := BitVec.ofNat 16 (field h 6 2),
    tag := BitVec.ofNat 20 (field h 8 4), xtag := BitVec.ofNat 16 (field h 12 4), addr := BitVec.ofNat 56 (field h 16 8),
    args := BitVec.ofNat 64 (field h 24 8), data := [] }

/-- The opcode is assigned (R144, R146, R656). -/
def opAssigned (op : Nat) : Bool :=
  decide (1 ≤ op ∧ op ≤ 9) || decide (0x20 ≤ op ∧ op ≤ 0x26) || op == 0x40 || decide (0x48 ≤ op ∧ op ≤ 0x4A) ||
    decide (0x50 ≤ op ∧ op ≤ 0x59) || decide (0x60 ≤ op ∧ op ≤ 0x66)

/-- Data slots that follow a header (R144, R145, 17 R656). -/
def dataSlots (m : Msg) : Nat :=
  let a := m.args.toNat
  match m.opc with
  | 4 => 2 * (a % 4 + 1)
  | 5 => 2
  | 6 => 1
  | 9 => if bit a 0 then 2 else 0
  | 0x24 | 0x25 => if bit a 4 then 1 else 2 * (a / 4 % 4 + 1)
  | 0x66 => 2 * (a % 4 + 1)
  | op => if 0x40 ≤ op then a % 2 ^ 16 else 0

/-- All slots of a message: its header, then its data in slots of 32 bytes (R143). -/
def msgSlots (m : Msg) : List Bytes :=
  msgHeader m :: (List.range (dataSlots m)).map (fun i => padTo 32 ((m.data.drop (32 * i)).take 32))

/-- Messages completed by slots that arrive in order; what is left is the message still being assembled. An all-zero slot
where a header is due is empty (log 21). None: a header with an unassigned opcode (R146). -/
def assemble : List Bytes → List Bytes → List Msg → Option (List Msg × List Bytes)
  | [], part, done => some (done, part)
  | s :: rest, part, done =>
    if part.isEmpty && s.all (fun b => b == 0#8) then assemble rest [] done
    else
      let part := part ++ [s]
      let m := parseHeader (part.headD [])
      if !opAssigned m.opc then none
      else if dataSlots m < part.length then
        assemble rest [] (done ++ [{ m with data := (part.drop 1).flatten }])
      else assemble rest part done

end Sys2Proof.Machine
end

