-- ==== Sys2Proof/Machine/Requests.lean ====
section
/-!
DEFINITION. How a request of an agent, host or peer enters: the checks of its ingress, its ticket, its translation, and
its forwarding to another home (02 R82-R84, 04 R132-R134, R147, R162-R165, 06 R218-R222, 08 R301-R308, 17 R669-R674).
-/

namespace Sys2Proof.Machine

/-- The device this port's peer is, as the Tally view knows it (17 R659): messages of an EXPELLED or ABSENT peer are
discarded, and an EXPELLED device accepts nothing on PEER ports. -/
def Dev.peerShut (d : Dev) (port : Nat) : Bool :=
  d.rb .HUB_FP_CFG_PEER port &&
    (d.rf .TLY_STS_SELF == 3 ||
      (match d.peerOf port with
       | some n => d.gone n
       | none => false))

/-- The request's ARGS keep R145 (R147, R177, R202, R211). -/
def argsOk (m : Msg) (agent : Bool) : Bool :=
  let a := m.args.toNat
  match m.opc with
  | 3 | 4 => decide (m.addr.toNat / 64 % 4 + a % 4 ≤ 3) && m.addr.toNat % 64 == 0
  | 1 | 2 | 5 | 9 => m.addr.toNat % 64 == 0
  | 6 =>
    let n := (atomicBytes (bits a 4 3)).getD 0
    let scope := bits a 8 2
    atomicOk (a % 16) (bits a 4 3) && n != 0 && m.addr.toNat % n == 0 && (!agent || decide (2 ≤ scope)) &&
      !(bit a 7 && (bits a 10 2 == 1 || bits a 10 2 == 3))
  | 7 => decide (1 ≤ a % 2 ^ 32 ∧ a % 2 ^ 32 ≤ 2 ^ 24) && m.addr.toNat % 64 == 0
  | _ => true

/-- The request's class, when it comes in PA form (R134, R143). -/
def msgCls (m : Msg) : Cls := if m.cls then .sharedRead else .held

/-- A slot for a request that has just arrived. -/
def newSlot (src : From) (port : Nat) (m : Msg) (cxl : Option CxlReq) (seq ticket gt epoch : Nat) (db : Bool) : Slot :=
  { src := src, port := port, msg := m, cxl := cxl, pa := 2 ^ 60, cls := msgCls m, t0s := m.af && m.t0s,
    eng := m.af && m.eng, write := isWrite m.opc, phase := .tier, seq := seq, since := gt, waited := 0, holds := 0, ticket := ticket, passed := false,
    todo := [],
    parts := 0, ans := [], scan := false, timedOut := false, level := 0, bypass := false, epoch := epoch, db := db,
    give := 0, arr := seq, va := m.addr.toNat % 2 ^ 52, spans := [] }

/-- A request of the device that ends with no answer: counted and logged (R174). -/
def Dev.logReqTo (d : Dev) (port : Nat) (m : Msg) : Dev :=
  (d.bump .MRT_CNT_REQ_TO).logEvent { kind := 5, u := true, aform := 0, tag := m.chamber.toNat, unit := port, agent := m.src.toNat,
                                      detail := m.opc, addr := m.addr.toNat }

/-- Sends a translated request on to another home in PA form (R134): SRC, TAG and TC are kept; CLS, T0S and ENG come
from the leaf and the requester. It follows its requester's earlier accesses to its lines (R195), but for an Evict, which waits for nothing (R140). -/
def Dev.forward (d : Dev) (id : Nat) (sl : Slot) (port : Nat) : Dev :=
  if sl.msg.opc ≠ 9 ∧ d.passes sl = true then d.setSlot id { sl with phase := .turn } else
  let m := { sl.msg with af := true, addr := BitVec.ofNat 56 sl.pa, cls := sl.cls == .sharedRead, t0s := sl.t0s,
                         eng := sl.eng }
  if (match d.route sl.pa with | .away _ h => d.gone h | _ => false) then
    let d := { d.logReqTo port m with coh.fenceTo := d.coh.fenceTo ++ [sl.who] }
    if isRead sl.msg.opc then d.finishPoison id sl else d.finishAck id sl 0x50
  else
  let d := d.setSlot id { sl with phase := .forward }
  { d.send (.msg port m) with
      coh.reqs := d.coh.reqs ++ [{ port := port, msg := m, why := .slot id, line := sl.pa / 64, reroutes := 0 }] }

/-- Stage 4's route for a translated request (17 R669, R673). -/
def Dev.routeSlot (d : Dev) (id : Nat) : Dev :=
  match d.slot id with
  | none => d
  | some sl =>
    let old := sl.src == .peer && sl.epoch != d.rf .CMP_STS_EPOCH
    /- a host's request through an HDM-DB window to a Shared-read page of another home goes no further (04 R139) -/
    let wrong := sl.db && sl.cls == .sharedRead
    match d.route sl.pa with
    | .here => d.homeEval id
    | .standin =>
      match d.standinLine sl.pa with
      | some (k, l) =>
        let d := d.wf .CMP_BUTTRESS_STATE k 4
        (d.setSlot id { sl with pa := sl.pa / 2 ^ 48 * 2 ^ 48 + l * 64 + sl.pa % 64 }).homeEval id
      | none =>
        let d := d.logLost sl.chamber (sl.pa / 64) (isWrite sl.msg.opc) sl.who
        if isWrite sl.msg.opc then d.finishAck id sl 0x30 else d.finishPoison id sl
    | .away p _ =>
      if wrong then d.refuseDb id sl
      else if old then
        let behind := subMod 8 (d.rf .CMP_STS_EPOCH) sl.epoch
        if behind = 1 ∧ d.rb .CMP_STS_GRACE = true then (d.bump .CMP_CNT_FORWARD).forward id sl p
        else (d.bump .CMP_CNT_REROUTE).finish id sl
          { ansMsg 0x63 2 sl.msg with tc := 0, src := 0xFFFF, dst := 0xFFFF, tag := sl.msg.tag,
                                      args := BitVec.ofNat 64 (d.rf .CMP_STS_EPOCH * 2 ^ 16) }
      else d.forward id sl p
    | .bad => d.finishCheck id sl

/-- A request's address has been translated (R304, R134). -/
def Dev.gotPa (d : Dev) (id : Nat) (sl : Slot) (pte level : Nat) : Dev :=
  (d.setSlot id { sl with pa := leafPa pte level sl.va, cls := pteCls pte, t0s := pteT0s pte, level := level }).routeSlot id

/-- A request on the Chamber's doorbell page (06 R235): reads uncached, writes as doorbells, atomics not applied. -/
def Dev.slotDoorbell (d : Dev) (id : Nat) (sl : Slot) (cva : Nat) : Dev :=
  let c := sl.chamber
  if isRead sl.msg.opc then
    d.finish id sl (dataMsg sl.msg 0 ((List.range sl.nlines).map (fun i => (d.doorbellRead c ((cva + 64 * i) % 65536), false))))
  else if sl.msg.opc = 6 then d.finishAck id sl 0x7F
  else
    let mask := if sl.msg.opc = 5 then sl.msg.args.toNat else fullMask
    let d := (List.range sl.nlines).foldl (fun d i =>
      d.doorbellPage c ((cva + 64 * i) % 65536) mask ((sl.msg.data.drop (64 * i)).take 64)) d
    d.finishAck id sl 0

/-- Translates a request in CVA form from the caches, or begins its walk (08 R304, R306). -/
def Dev.xlateSlot (d : Dev) (id : Nat) : Dev :=
  match d.slot id with
  | none => d
  | some sl =>
    let c := sl.chamber
    let cva := sl.msg.addr.toNat % 2 ^ 52
    if d.inDbPage c cva then d.slotDoorbell id sl cva
    else
      let hit := match d.tlbLookup none c cva with
        | some e => if sl.write && !pteW e.pte then none else some e
        | none => none
      match hit with
      | some e => (d.tlbFill none c cva e.level e.pte).gotPa id sl e.pte e.level
      | none =>
        let (l, n) := d.walkStart c cva
        d.setSlot id { sl with phase := .walk l n, bypass := false }

/-- A translation made at once for an Evict, which may wait for nothing (R140): the caches, or the tables as their homes hold them, an owner's
modified copy unseen (DEDUCED, log 146). -/
def Dev.walkNow (d : Dev) (c cva : Nat) : Nat → Nat → Nat → Option (Nat × Nat)
  | 0, _, _ => none
  | fuel + 1, level, node =>
    let a := pteAddr node level cva
    if d.route a = .here ∧ d.nodeOk c node = true then
      match walkStep (field (d.rdLine (a % 2 ^ 48 / 64)).1 (a % 64) 8) level false with
      | .leaf => some (field (d.rdLine (a % 2 ^ 48 / 64)).1 (a % 64) 8, level)
      | .next n => d.walkNow c cva fuel (level - 1) n
      | .fault _ => none
    else none

/-- What a walk of the tables shows at once. -/
inductive Seen where
  /-- its pool address, class and T0STAGE -/
  | page (pa : Nat) (cls : Cls) (t0s : Bool)
  | unmapped
  /-- a table pointer lies at another home, or an agent owns its line: a walk must read it (08 R302) -/
  | later
deriving DecidableEq, Repr

/-- The walk of a CVA as far as it can be made at once (08 R302, R304). -/
def Dev.walkSeen (d : Dev) (c cva : Nat) : Nat → Nat → Nat → Seen
  | 0, _, _ => .unmapped
  | fuel + 1, level, node =>
    let a := pteAddr node level cva
    let line := a % 2 ^ 48 / 64
    match d.route a with
    | .here =>
      let owned : Bool := match kget d.coh.dir line with | some e => e.st == .he | none => false
      if !d.nodeOk c node then .unmapped
      else if owned || d.lineBusy line || d.lineServing line false then .later
      else
        let pte := field (d.rdLine line).1 (a % 64) 8
        match walkStep pte level false with
        | .leaf => .page (leafPa pte level cva) (pteCls pte) (pteT0s pte)
        | .next n => d.walkSeen c cva fuel (level - 1) n
        | .fault _ => .unmapped
    | .away .. => .later
    | _ => .unmapped

/-- Where a CVA lies, as far as that is seen at once. -/
def Dev.pageSeen (d : Dev) (c cva : Nat) : Seen :=
  match d.tlbLookup none c cva with
  | some e => .page (leafPa e.pte e.level cva) (pteCls e.pte) (pteT0s e.pte)
  | none => d.walkSeen c cva 3 2 (d.rootOf c)

/-- The pool address of a CVA, where it is seen at once. -/
def Dev.paSeen (d : Dev) (c cva : Nat) : Option Nat := match d.pageSeen c cva with | .page pa _ _ => some pa | _ => none

/-- The pool address of a CVA as it stands, none where it is not mapped: for an Evict (log 146). -/
def Dev.paNow (d : Dev) (c cva : Nat) : Option Nat :=
  match d.tlbLookup none c cva with
  | some e => some (leafPa e.pte e.level cva)
  | none => (d.walkNow c cva 3 2 (d.rootOf c)).map (fun x => leafPa x.1 x.2 cva)

/-! ### Sweeps (04 R158-R160, 14 R559) -/

/-- Takes the granules of the REMOTE pages [p, p + n) out of the window caches; one being fetched is not kept (14 R559, R561). -/
def Dev.dropGrans (d : Dev) (p n : Nat) : Dev :=
  let left := d.grans.filter (fun e => !(decide (p ≤ e.1 ∧ e.1 < p + n) && !e.2.fetching))
  { d with grans := left.map (fun e => if p ≤ e.1 ∧ e.1 < p + n then (e.1, { e.2 with keep := false }) else e) }

/-- The lines of local ranges (first line, lines) that a Sweep must see to, in rising order: tracked, BUSY or in service (R158). -/
def Dev.sweepLines (d : Dev) (rs : List (Nat × Nat)) : List Nat :=
  let inside (l : Nat) : Bool := rs.any (fun r => decide (r.1 ≤ l ∧ l < r.1 + r.2))
  ((d.coh.dir.map Prod.fst) ++ (d.coh.txns.map Prod.fst) ++
    (d.coh.slots.flatMap (fun e => if isRead e.2.msg.opc || isWrite e.2.msg.opc then e.2.lines else []))).eraseDups.filter
    inside |>.mergeSort (fun a b => decide (a ≤ b))

/-- Begins a Sweep of local ranges for a slot: more than 1,024 lines are served by a scan (R159). -/
def Dev.sweepHere (d : Dev) (id : Nat) (sl : Slot) (rs : List (Nat × Nat)) (parts : Nat) : Dev :=
  let n := (rs.map Prod.snd).sum
  let d := rs.foldl (fun d r => d.dropGrans (r.1 / 1024) ((r.1 + r.2 + 1023) / 1024 - r.1 / 1024)) d
  (d.setSlot id { sl with phase := .sweep, todo := d.sweepLines rs, scan := decide (1024 < n), parts := parts }).sweepGo id

/-- A part of a CVA-form Sweep goes to another home in PA form: SRC, TAG and TC of the request, CLS, T0S and ENG of the leaf and the
requester (R134, R158). -/
def Dev.sweepSend (d : Dev) (id : Nat) (sl : Slot) (port : Nat) (x : Nat × Nat × Cls × Bool) : Dev :=
  let m := { sl.msg with af := true, addr := BitVec.ofNat 56 x.1, args := BitVec.ofNat 64 x.2.1, rsv := false, xtag := 0,
                         cls := x.2.2.1 == .sharedRead, t0s := x.2.2.2, eng := sl.eng }
  { d.send (.msg port m) with
      coh.reqs := d.coh.reqs ++ [{ port := port, msg := m, why := .slot id, line := x.1 / 64, reroutes := 0 }] }

/-- The pages of a CVA-form Sweep are translated: each home is sent its parts, and those homed here are swept, after its requester's
earlier accesses to them (R158, R195, log 17). A part for a home that is gone ends at once, as R174 fixes. -/
def Dev.sweepPages (d : Dev) (id : Nat) (sl : Slot) : Dev :=
  if d.passes sl then d.setSlot id { sl with phase := .turn } else
  let c := sl.chamber
  let rs := sl.spans.filterMap (fun x => (d.localLine x.1).map (fun l => (l.1, x.2.1)))
  let outs := sl.spans.filterMap (fun x => match d.route x.1 with
    | .away p h => if d.gone h then none else some (p, x)
    | _ => none)
  let dead := sl.spans.any (fun x => match d.route x.1 with | .away _ h => d.gone h | _ => false)
  if sl.spans.any (fun x => d.route x.1 == .bad) || rs.any (fun r => d.stage4 c (lineExt r.1) false true == .check) then
    d.finishCheck id sl
  else
    let d := if dead then { d with coh.fenceTo := d.coh.fenceTo ++ [sl.who] } else d
    (outs.foldl (fun d x => d.sweepSend id sl x.1 x.2) d).sweepHere id { sl with timedOut := sl.timedOut || dead } rs outs.length

/-- A CVA-form Sweep translates its range page by page; pages not mapped are skipped (R158). -/
def Dev.sweepWalk (d : Dev) (id : Nat) : Nat → Dev
  | 0 => d
  | fuel + 1 =>
    match d.slot id with
    | none => d
    | some sl =>
      let stop := sl.msg.addr.toNat % 2 ^ 52 + 64 * (sl.msg.args.toNat % 2 ^ 32)
      if stop ≤ sl.va then d.sweepPages id sl
      else
        let next := min stop ((sl.va / 65536 + 1) * 65536)
        match d.pageSeen sl.chamber (sl.va % 2 ^ 52) with
        | .page pa cls t0s =>
          Dev.sweepWalk (d.setSlot id { sl with va := next, spans := sl.spans ++ [(pa, (next - sl.va) / 64, cls, t0s)] }) id fuel
        | .unmapped => Dev.sweepWalk (d.setSlot id { sl with va := next }) id fuel
        | .later => d.setSlot id { sl with phase := .walk 2 (d.rootOf sl.chamber), bypass := true, ans := [] }

/-- Pages that the range of a Sweep can touch, and one. -/
def Slot.sweepFuel (sl : Slot) : Nat := sl.msg.args.toNat % 2 ^ 32 / 1024 + 3

/-- A walk of one page of a Sweep has ended: its pool address, class and T0STAGE, or none where it is not mapped. -/
def Dev.sweepWalked (d : Dev) (id : Nat) (sl : Slot) (leaf : Option (Nat × Cls × Bool)) : Dev :=
  let stop := sl.msg.addr.toNat % 2 ^ 52 + 64 * (sl.msg.args.toNat % 2 ^ 32)
  let next := min stop ((sl.va / 65536 + 1) * 65536)
  (d.setSlot id { sl with va := next, ans := [],
                          spans := sl.spans ++ (match leaf with | some x => [(x.1, (next - sl.va) / 64, x.2)] | none => []) }).sweepWalk id sl.sweepFuel

/-- A Sweep begins (R158): in PA form within one extent, in CVA form page by page. -/
def Dev.sweepBegin (d : Dev) (id : Nat) : Dev :=
  match d.slot id with
  | none => d
  | some sl =>
    let lines := sl.msg.args.toNat % 2 ^ 32
    if sl.msg.af then
      let pa := sl.msg.addr.toNat
      if pa / 2 ^ 28 ≠ (pa + 64 * lines - 1) / 2 ^ 28 then d.finishAck id sl 0x7F
      else
        match d.localLine pa with
        | some (l, _) =>
          if d.stage4 sl.chamber (lineExt l) false (match d.route pa with | .standin => true | _ => false) = .check then
            d.finishCheck id sl
          else d.sweepHere id { sl with spans := [(pa, lines, sl.cls, sl.t0s)] } [(l, lines)] 0
        | none => match d.route pa with
          | .away p _ => d.forward id { sl with pa := pa } p
          | _ => d.finishCheck id sl
    else d.sweepWalk id sl.sweepFuel

/-- A request that no slot or check turned away takes a slot and begins: translation, or stage 4 for PA form. A Fence
and a release atomic wait for the agent's earlier requests first (R175, R210). `ticket` is one more than a resend's ticket, 0 without one. -/
def Dev.takeIn (d : Dev) (src : From) (port : Nat) (m : Msg) (cxl : Option CxlReq) (ticket : Nat) (db : Bool) : Dev :=
  let d := d.tick
  let id := freshKey d.coh.slots 0
  let tk := if ticket = 0 then none else kget d.coh.tickets (ticket - 1)
  let seq := match tk with | some t => t.seq | none => d.coh.clock
  let old := d.coh.retried.find? (fun r => cxl.isNone && r.1 == m.src.toNat && r.2.1 == m.tag.toNat)
  let arr := match tk, old with | some t, _ => t.arr | none, some r => r.2.2 | none, none => seq
  let d := if ticket = 0 then d else d.endTicket (ticket - 1)
  let d := match old with | some r => { d with coh.retried := d.coh.retried.erase r } | none => d
  let epoch := if src = .peer then sget (d.rf .CMP_STS_EPOCH) d.portEpoch port else d.rf .CMP_STS_EPOCH
  let sl := { newSlot src port m cxl seq ticket d.gt epoch db with arr := arr }
  let release := m.opc = 6 ∧ 2 ≤ bits m.args.toNat 10 2 ∧ src ≠ .peer
  if m.opc = 8 ∨ release then d.setSlot id { sl with phase := .order }
  else
    let d := d.setSlot id sl
    if m.opc = 7 then d.sweepBegin id
    else if m.af then (d.setSlot id { sl with pa := m.addr.toNat }).routeSlot id else d.xlateSlot id

/-- An answer that needs no slot, for a Mortar request. -/
def Dev.refuse (d : Dev) (port : Nat) (m : Msg) (status : Nat) : Dev := d.send (.msg port (ackMsg m status false))

/-- The local line that a request names, as it translates at once; a number past every local line for one of another home or with no such
translation. -/
def Dev.lineAsked (d : Dev) (m : Msg) : Nat :=
  let pa := if m.af then some m.addr.toNat else d.paSeen m.chamber.toNat (m.addr.toNat % 2 ^ 52)
  match pa with
  | some pa => if pa / 2 ^ 48 = d.devnum then pa % 2 ^ 48 / 64 else 2 ^ 46 + m.addr.toNat / 64
  | none => 2 ^ 46 + m.addr.toNat / 64

/-- Every tracker slot is in use or reserved by a live ticket (R162). -/
def Dev.trackerFull (d : Dev) : Bool := decide (262144 ≤ d.coh.slots.length + d.coh.tickets.length)

/-- The sender of a Mortar message is an agent listed on the arriving port, or one reached through that peer (R132). -/
def Dev.senderOk (d : Dev) (port : Nat) (m : Msg) : Bool :=
  let a := m.src.toNat
  d.coh.agents.contains a &&
    (if agentDev a = d.devnum then agentPort a == port else d.rb .HUB_FP_CFG_PEER port && d.portTo a == port)

/-- The sender of a request may send it on the port: an agent listed, or on a PEER port the device there (R132, R134). -/
def Dev.senderListed (d : Dev) (port : Nat) (m : Msg) : Bool := d.senderOk port m || (d.rb .HUB_FP_CFG_PEER port && m.src == 0xFFFF#16)

/-- A Mortar request arrives on a port: the checks of ingress and of the Chamber, then admission or Retry. -/
def Dev.request (d : Dev) (port : Nat) (m : Msg) : Dev :=
  let peer := d.rb .HUB_FP_CFG_PEER port
  let c := m.chamber.toNat
  if d.peerShut port then d
  else if !d.senderListed port m then (d.logProtocol port m).refuse port m 0x7F
  else if m.af && !peer then (d.logProtocol port m).refuse port m 0x7F
  else if !argsOk m true then d.refuse port m 0x7F
  else if !bit (d.rf .HUB_FP_CFG_CHAMBERS port) c || !d.chmDefined c then
    (d.failCheck c (if m.af then 0 else 1) m.addr.toNat m.opc m.src.toNat).refuse port m 0x7F
  else if d.chmState c ≠ 1 then d.refuse port m 0x21
  else if m.opc = 8 then d.takeIn .mortar port m none 0 false
  else
    let src : From := if m.af then .peer else .mortar
    match d.ticketOf m with
    | some _ => d.takeIn src port m none (m.xtag.toNat + 1) false
    | none =>
      let line := d.lineAsked m
      if d.trackerFull = true ∨ d.retryBlocked m.src.toNat line (msgLines m) (d.coh.clock + 1) = true then
        d.retry port m line (d.coh.clock + 1)
      else d.takeIn src port m none 0 false

/-- The request waits at its port for want of a reservation (R162). -/
def Dev.isWithheld (d : Dev) (port : Nat) (m : Msg) : Bool := d.coh.withheld.any (fun x => x.1 == port && x.2.1 == m)

/-- A request that waits at its port keeps the class of credit that it was charged to. -/
def Dev.keepCredit (d : Dev) (port : Nat) (m : Msg) (key : Option Nat) : Dev :=
  { d with coh.withheld := d.coh.withheld.map (fun x => if x.1 == port && x.2.1 == m then (port, m, key) else x) }

/-- Credit of a class becomes due to the partner: the link layer returns it when the share has room (03 R99, R114). -/
def Dev.owe (d : Dev) (p key n : Nat) : Dev :=
  { d with link := kmod d.link p (fun l => { l with owed := sput 0 l.owed key (sget 0 l.owed key + n) }) }

/-- Slots of a message: its header and its data (R143). -/
def slotsOf (m : Msg) : Nat := dataSlots m + 1

/-- A request withheld at its port for want of a reservation is taken up again, and its credit returns (R162). -/
def Dev.unwithhold (d : Dev) : Dev :=
  match d.coh.withheld with
  | [] => d
  | (p, m, key) :: rest =>
    if d.coh.tickets.length < 65535 then
      let d := { d with coh.withheld := rest }.request p m
      if d.isWithheld p m then d.keepCredit p m key
      else match key with | some k => d.owe p k (slotsOf m) | none => d
    else d

/-- Translated requests that waited for their requesters' earlier accesses are forwarded, in arrival order (R195). -/
def Dev.turnsGo (d : Dev) : Nat → Dev
  | 0 => d
  | fuel + 1 =>
    let ready := d.coh.slots.filter (fun e => e.2.phase == .turn && !d.passes e.2)
    match ready.find? (fun e => ready.all (fun x => decide (e.2.seq ≤ x.2.seq))) with
    | none => d
    | some (id, sl) =>
      let d := if sl.msg.opc = 7 then if sl.msg.af then d.sweepBegin id else d.sweepPages id sl else d.routeSlot id
      d.turnsGo fuel

/-- What waits for a line, a page, an extent or its turn goes on where it can. -/
def Dev.slotsGo (d : Dev) : Dev :=
  let d := d.wakeAll
  if d.coh.slots.any (fun e => e.2.phase == .turn) then (d.turnsGo (d.coh.slots.length + 1)).wakeAll else d

/-- A request arrives, and what it set free goes on. -/
def Dev.requestIn (d : Dev) (port : Nat) (m : Msg) : Dev := ((d.request port m).unwithhold).slotsGo

/-- A request that waited for earlier requests of its agent goes on (R175, R210). -/
def Dev.orderDone (d : Dev) (id : Nat) : Dev :=
  match d.slot id with
  | none => d
  | some sl => if sl.msg.af then (d.setSlot id { sl with pa := sl.msg.addr.toNat }).routeSlot id else d.xlateSlot id

/-! ### Walks (08 R304, R308) -/

/-- A walk of a slot has failed: it is walked once more past the caches; then its fault is recorded (R308). -/
def Dev.walkFailed (d : Dev) (id : Nat) (sl : Slot) (kind level : Nat) : Dev :=
  let c := sl.chamber
  if sl.msg.opc = 7 then d.sweepWalked id sl none
  else if !sl.bypass then d.setSlot id { sl with phase := .walk 2 (d.rootOf c), bypass := true, ans := [] }
  /- no fault record is opened for a Chamber that is being aborted (06 R243) -/
  else if d.chmState c = 3 then d.abortSlot id sl
  else
    let page := sl.va / 65536
    let room := d.recRoom c || d.hasRec c page
    (d.waitSlot id { sl with ans := [] } (if room then .fault page else .stalled page)).fault c page kind level
      (100 + sl.port) sl.write

/-- What a PTE that has been read does to the walk of a slot (R304). -/
def Dev.walkOn (d : Dev) (id : Nat) (sl : Slot) (level pte : Nat) : Dev :=
  let cva := sl.va % 2 ^ 52
  match walkStep pte level sl.write with
  | .fault k => d.walkFailed id sl k level
  | .next n => (d.walkFill sl.chamber cva level pte).setSlot id { sl with phase := .walk (level - 1) n, ans := [] }
  | .leaf =>
    let d := d.tlbFill none sl.chamber cva level pte
    if sl.msg.opc = 7 then d.sweepWalked id sl (some (leafPa pte level cva, pteCls pte, pteT0s pte)) else d.gotPa id { sl with ans := [] } pte level

/-- A walker's PTE read for a slot completes, counted at its home as an engine's (R302, R304, R329). -/
def Dev.pteRead (d : Dev) (id : Nat) : Dev :=
  match d.slot id with
  | none => d
  | some sl =>
    match sl.phase with
    | .stalled page =>
      if d.recRoom sl.chamber || d.hasRec sl.chamber page then
        d.setSlot id { sl.resumed d.gt (.walk 2 (d.rootOf sl.chamber)) with bypass := false, ans := [] }
      else d
    | .walk level node =>
      let c := sl.chamber
      let a := pteAddr node level (sl.va % 2 ^ 52)
      match d.route a with
      | .here =>
        if !d.nodeOk c node then d.walkFailed id sl 4 level
        else
          let line := a % 2 ^ 48 / 64
          if d.lineBusy line || d.lineServing line false then d
          else match kget d.coh.dir line with
            | some ⟨_, .he, _, _, _, _⟩ => d.openTxn line .engine true none
            | _ =>
              let (b, p) := d.rdLine line
              let d := d.countAccess line 2
              if p then (d.logPtePoison c a level).walkFailed id sl 3 level
              else d.walkOn id sl level (field b (a % 64) 8)
      | .away port _ =>
        match sl.ans.find? (fun r => r.line == a / 64) with
        | some r =>
          if r.status ≠ 0 then d.walkFailed id sl 4 level
          else if r.poison then (d.logPtePoison c a level).walkFailed id sl 3 level
          else d.walkOn id sl level (field r.data (a % 64) 8)
        | none =>
          if !nodeFit node || (match d.route a with | .away _ h => d.gone h | _ => false) then d.walkFailed id sl 4 level
          else if d.asked (.walk id) (a / 64) then d
          else d.askOut port { reqMsg 3 3 true c (a / 64 * 64) 0 [] with eng := true } (.walk id) (a / 64)
      | _ => d.walkFailed id sl 4 level
    | _ => d

/-! ### Answers to the device's requests (R134, R174) -/

/-- The request that an answer names, by DST, TAG and ADDR (R143). -/
def Dev.findReq (d : Dev) (m : Msg) : Option DevReq :=
  d.coh.reqs.find? (fun r => r.msg.src == m.dst && r.msg.tag == m.tag && r.msg.addr == m.addr)

/-- The device with a request of its own no longer waiting. -/
def Dev.dropReq (d : Dev) (r : DevReq) : Dev := { d with coh.reqs := d.coh.reqs.erase r }

/-- A final answer as an engine keeps it: one for each line it covers. -/
def ansOf (r : DevReq) (m : Msg) : List Ans :=
  let poisonOf (i : Nat) : Bool := m.opc = 0x25 && bit m.args.toNat (8 + i)
  let wprot := m.opc = 0x26 && bit m.args.toNat 0
  if r.msg.opc = 3 then
    (List.range (r.msg.args.toNat % 4 + 1)).map (fun i =>
      { line := r.line + i, write := false, status := m.status.toNat, data := (m.data.drop (64 * i)).take 64,
        poison := poisonOf i, wprot := false })
  else [{ line := r.line, write := true, status := m.status.toNat, data := m.data, poison := poisonOf 0, wprot := wprot }]

/-- Lines of a write or atomic that its home has performed, by pool line number. -/
def DevReq.written (r : DevReq) (m : Msg) : List Nat :=
  if isWrite r.msg.opc && m.status == 0#8 then (List.range (msgLines r.msg)).map (fun i => r.line + i) else []

/-- A status whose COUNT is the lines committed (06 R229, R231). -/
def countsLines (st : Nat) : Bool := decide (0x20 ≤ st) && !([0x21, 0x51, 0x60, 0x7F].contains st)

/-- A final answer for an operation (06 R228, R231, R246): the operation keeps it; the lines that it says were written count, and an
atomic's APPLIED is set, in its record too where it has ended. -/
def Dev.opAnswer (d : Dev) (id : Nat) (r : DevReq) (m : Msg) (a : List Ans) : Dev :=
  { d with ops := kmod d.ops id (fun o =>
      let new := (r.written m).filter (fun l => !o.seen.contains l)
      let done := isWrite r.msg.opc && m.status == 0#8 && o.opcode == 0x01 && !(a.any Ans.poison)
      { o with ans := o.ans ++ a, seen := o.seen ++ new, lines := o.lines + new.length, applied := o.applied || done,
               phase := match o.phase with
                 | .ending x => .ending { x with count := if countsLines x.status then x.count + new.length else x.count,
                                                 applied := x.applied || done }
                 | p => p }) }.writeRecord id

/-- A final answer for a brick: its unit keeps it, and the lines that it says were written count for the run (06 R231). -/
def Dev.masonAnswer (d : Dev) (k : Nat) (r : DevReq) (m : Msg) (a : List Ans) : Dev :=
  let d := d.giveAns (.mason k) a
  match (kget d.masons (k / 4)).bind Mason.run with
  | none => d
  | some id => { d with ops := kmod d.ops id (fun o =>
      let new := (r.written m).filter (fun l => !o.seen.contains l)
      { o with seen := o.seen ++ new, lines := o.lines + new.length }) }

/-- Zeros for the next burst of the lent extent that ASSIGN has in hand go to its lender (02 R62, R64). -/
def Dev.zeroSend (d : Dev) : Dev :=
  match d.extCmd with
  | none => d
  | some k =>
    let n := k.first + k.done
    let e := d.extent n
    d.askOut e.port (reqMsg 4 5 true k.chamber (e.target * 2 ^ 28 + k.zeros * 256) 3 (zeros 256)) .zero
      (d.devnum * 2 ^ 42 + n * 2 ^ 22 + 4 * k.zeros)

/-- The lender has answered a burst of zeros, or has not in time: the next follows (log 119). -/
def Dev.zeroNext (d : Dev) : Dev :=
  match d.extCmd with
  | none => d
  | some k =>
    let d := { d with extCmd := some { k with zeros := k.zeros + 1 } }
    if k.zeros + 1 < 2 ^ 20 then d.zeroSend else d

/-- A final answer arrives for a request of the device: its requester takes it (R134, R759). The Ack of a Sweep says only whether some home
gave no answer in time; another STATUS of a part does not reach the agent (R158, DESIGN CHOICE, log 147). -/
def Dev.takeAnswer (d : Dev) (r : DevReq) (m : Msg) : Dev :=
  let d := d.dropReq r
  let a := ansOf r m
  match r.why with
  | .op id => d.opAnswer id r m a
  | .walk id => { d with coh.slots := kmod d.coh.slots id (fun sl => { sl with ans := a }) }
  | .mason k => d.masonAnswer k r m a
  | .portal _ => d.giveAns r.why a
  | .svc _ => d.giveAns r.why a
  | .zero => d.zeroNext
  | .settle jid => d.settleTake jid a
  | .none => d
  | .slot id =>
    match d.slot id with
    | none => d
    | some sl =>
      match sl.phase with
      | .lender => match a with
        | x :: _ =>
          let all : Ans := { x with data := (a.map (fun y => y.data)).flatten, poison := a.any (fun y => y.poison) }
          let sl := { sl with waited := sl.waited + (d.gt - sl.since), since := d.gt }
          (d.setSlot id sl).lenderDone id sl all (a.map (fun y => y.poison))
        | [] => d
      | .sweep =>
        let late := m.opc = 0x26 && m.status == 0x50#8
        let d := if late then { d with coh.fenceTo := d.coh.fenceTo ++ [sl.who] } else d
        (d.setSlot id { sl with parts := sl.parts - 1, timedOut := sl.timedOut || late }).sweepGo id
      | _ =>
        /- a forwarded request that its home ended by R174 counts for the agent's next Fence (R175) -/
        let d := if m.opc = 0x26 ∧ m.status = 0x50 then { d with coh.fenceTo := d.coh.fenceTo ++ [sl.who] } else d
        if m.opc = 0x26 ∧ m.status = 0x7F ∧ bit m.args.toNat 0 = true ∧ sl.src ≠ .peer then
          let c := sl.chamber
          let page := sl.msg.addr.toNat % 2 ^ 52 / 65536
          let room := d.recRoom c || d.hasRec c page
          if d.chmState c = 3 then d.abortSlot id sl
          else (d.waitSlot id sl (if room then .fault page else .stalled page)).fault c page 2 sl.level (100 + sl.port) true
        else d.finish id sl { m with tc := sl.msg.tc, af := sl.msg.af, addr := sl.msg.addr, dst := sl.msg.src }

/-- The home whose answer a request of the device waits for: the one to which the route of its pool address leads, as it was asked
(17 R669), else the device behind its port. A request to a lender, which serves a local line, goes by port. -/
def Dev.reqHome (d : Dev) (r : DevReq) : Option Nat :=
  if r.msg.af && r.line / 2 ^ 42 != d.devnum then
    match d.route r.msg.addr.toNat with
    | .away _ h => some h
    | _ => d.peerOf r.port
  else d.peerOf r.port

/-- The partner that has not answered is reported to Tally: its device, or the agent behind a port that leads to none (R174, log 120). -/
def Dev.reportPartner (d : Dev) (r : DevReq) : Dev :=
  match d.reqHome r with
  | some h => d.tally h 2
  | none => d.reportAgent (d.devnum * 256 + r.port % 16 * 16)

/-- A request of the device ends with no answer, as R174 fixes for its kind. -/
def Dev.endReq (d : Dev) (r : DevReq) : Dev :=
  let d := d.dropReq r
  let fail (m : Msg) : List Ans := ansOf r { ackMsg m 0x50 false with data := [] }
  match r.why with
  | .op id => (d.giveAns r.why (fail r.msg)).writeRecord id
  | .walk id => { d with coh.slots := kmod d.coh.slots id (fun sl => { sl with ans := fail r.msg }) }
  | .mason _ => d.giveAns r.why (fail r.msg)
  | .portal _ => d.giveAns r.why (fail r.msg)
  | .svc _ => d.giveAns r.why (fail r.msg)
  | .zero => d.zeroNext
  | .settle jid => d.settleTake jid (fail r.msg)
  | .none => d
  | .slot id =>
    match d.slot id with
    | none => d
    | some sl =>
      let d := { d with coh.fenceTo := d.coh.fenceTo ++ [sl.who] }
      match sl.phase with
      | .sweep => (d.setSlot id { sl with parts := sl.parts - 1, timedOut := true }).sweepGo id
      | _ => if isRead sl.msg.opc then d.finishPoison id sl else d.finishAck id sl 0x50

end Sys2Proof.Machine
end

