-- ==== Sys2Proof/Machine/Credit.lean ====
section
/-!
DEFINITION. The state of a Mortar link and its credits (03 R94-R100, 04 R166).
-/

namespace Sys2Proof.Machine

/-- A link with nothing sent or received. -/
def newLink (training : Bool) : Link :=
  { expect := 0, unacked := 0, nakked := false, nextSeq := 0, replay := [], retrains := [],
    training := training, crcFails := 0, fec := [], slots := [], granted := [], held := [], owed := [], ctrl := [], answers := [], down := false }

/-- The link state of a port. -/
def Dev.link_ (d : Dev) (p : Nat) : Link := sget (newLink false) d.link p

/-- The device with a port's link state replaced. -/
def Dev.setLink (d : Dev) (p : Nat) (l : Link) : Dev := { d with link := kput d.link p l }

/-- The last SEQ received in order: the ACK that flits carry. -/
def Link.ack (l : Link) : Nat := (l.expect + 4095) % 4096

/-- Cells in use of a lossless share (R112). -/
def Dev.shareUsed (d : Dev) (s c : Nat) : Nat :=
  ((d.hub.frames.filter (fun f => !f.droppable && f.share == s && f.tc == c)).map OutFrame.left).sum

/-- Cells of a lossless share that are neither in use nor kept for responses (R113, R114). -/
def Dev.reqRoom (d : Dev) (s c : Nat) : Bool :=
  let i := s * 8 + c
  decide (d.shareUsed s c < 4 * d.rf .HUB_LSHARE_SIZE i - d.rf .HUB_LSHARE_RSP i)

/-- Slots that may be granted now for a class: of a lossless share one for each of its cells that is neither in use nor granted on some
port; of the unbound allowance and the pools whatever is owed (R99, R114, R166, log 22). -/
def Dev.grantRoom (d : Dev) (key : Nat) : Nat :=
  let s := key / 8
  let c := key % 8
  if s ≤ 16 then 4 * d.rf .HUB_LSHARE_SIZE (s * 8 + c) - d.shareUsed s c - (d.link.map (fun e => sget 0 e.2.granted key)).sum
  else 2 ^ 16

/-- The credit that the next flit on a port returns: share, class, slots; it becomes granted (R90, R99). -/
def Dev.takeOwed (d : Dev) (p : Nat) : Dev × (Nat × Nat × Nat) :=
  let l := d.link_ p
  match (l.owed.map (fun e => (e.1, min 255 (min e.2 (d.grantRoom e.1))))).find? (fun x => decide (0 < x.2)) with
  | some (k, n) =>
    (d.setLink p { l with owed := sput 0 l.owed k (sget 0 l.owed k - n), granted := sput 0 l.granted k (sget 0 l.granted k + n) },
     (k / 8, k % 8, n))
  | none => (d, (0, 0, 0))

/-- An ACK or NAK goes out in an IDLE flit, which repeats the last SEQ sent and returns credit that is owed (R94, R96). -/
def Dev.sendAck (d : Dev) (p : Nat) (nak : Bool) : Dev :=
  let (d, ret) := d.takeOwed p
  let l := d.link_ p
  (d.setLink p { l with unacked := 0 }).send (.flit p (mkFlit 0 ((l.nextSeq + 4095) % 4096) l.ack nak ret []))

/-- A flit of the replay buffer, with the present ACK (R90, R97). -/
def SentFlit.raw (f : SentFlit) (ack : Nat) : Bytes := mkFlit f.kind f.seq ack false f.ret f.slots

/-- Sends flits of the replay buffer (R97, R101). -/
def Dev.resend (d : Dev) (p : Nat) (fs : List SentFlit) : Dev :=
  fs.foldl (fun d f => d.send (.flit p (f.raw (d.link_ p).ack))) d

/-- The credit class of a message on a port: TC + 8 * share (R99, R100, 04 R166). -/
def Dev.creditKey (d : Dev) (p : Nat) (m : Msg) : Nat :=
  let share := if 0x60 ≤ m.opc ∧ m.opc ≤ 0x65 then 16
    else if bit (d.rf .HUB_FP_CFG_CHAMBERS p) m.chamber.toNat then m.chamber.toNat else 17
  m.tc.toNat + 8 * share

/-- The reserved-credit pool of a message (04 R166). -/
def poolKey (m : Msg) : Nat := 2 + 8 * (20 + m.vc.toNat)

/-- A message may use reserved credit: on REQ only a resend (04 R166). -/
def poolUse (m : Msg) : Bool := m.vc != 0 || m.rsv

/-- Takes `n` slots of credit for a message, and says of which class: ordinary credit, or the pool when no ordinary credit is left; none
when there is not enough (R99, 04 R166). -/
def takeCredit (t : Map Nat) (key n : Nat) (m : Msg) : Option (Map Nat × Nat) :=
  if n ≤ sget 0 t key then some (sput 0 t key (sget 0 t key - n), key)
  else if sget 0 t key = 0 ∧ poolUse m = true ∧ n ≤ sget 0 t (poolKey m) then
    some (sput 0 t (poolKey m) (sget 0 t (poolKey m) - n), poolKey m)
  else none

/-- Ports in MORTAR mode on which a share's credit is granted: those bound to the Chamber, all for the device's (R99). -/
def Dev.portsOf (d : Dev) (s : Nat) : List Nat :=
  (List.range 16).filter (fun p => d.isMortar p && (s == 16 || bit (d.rf .HUB_FP_CFG_CHAMBERS p) s))

/-- Credit granted when a link comes up: 4 slots a class for unbound Chambers; of a lossless share, one slot for each of
its cells, in equal parts to its ports, and no more than it has room for; of a reserved pool, 9 slots for every agent behind the port and never fewer than 9. What the
device may send begins with none: its partner grants it (R99, 04 R166; DESIGN CHOICE, log 22). -/
def Dev.initialCredit (d : Dev) (p : Nat) : Map Nat :=
  let put (m : Map Nat) (k v : Nat) : Map Nat := sput 0 m k v
  let shares := (List.range 17).filter (fun s => s == 16 || bit (d.rf .HUB_FP_CFG_CHAMBERS p) s)
  let m := shares.foldl (fun m s => (List.range 6).foldl (fun m c =>
    put m (c + 8 * s) (min (d.grantRoom (c + 8 * s)) (4 * d.rf .HUB_LSHARE_SIZE (s * 8 + c) / max 1 (d.portsOf s).length))) m) []
  let m := (List.range 8).foldl (fun m c => put m (c + 8 * 17) 4) m
  let n := (d.coh.agents.filter (fun a => d.portTo a == p)).length
  (List.range 4).foldl (fun m v => put m (2 + 8 * (20 + v)) (9 * max 1 n)) m

end Sys2Proof.Machine
end

