-- ==== Sys2Proof/Machine/Mortar.lean ====
section
/-!
DEFINITION. The commands of the coherence protocol: Mortar messages that arrive on a port, the timers of the protocol, and
CXL.mem requests (04 R131-R178, 05 R198-R213).
-/

namespace Sys2Proof.Machine

/-- A message handed over by the link layer leaves the queue of delivered messages when `f` takes it up; its credit is then due to
the partner, but for a request that must wait at its port (03 R99, 04 R162). -/
def Dev.taken (d : Dev) (port : Nat) (m : Msg) (f : Dev → Dev) : Dev :=
  match d.delivered.find? (fun x => x.1 == port && x.2.1 == m) with
  | none => f d
  | some x =>
    let d := f { d with delivered := d.delivered.erase x }
    if d.isWithheld port m then d.keepCredit port m (some x.2.2) else d.owe port x.2.2 (slotsOf m)

/-- The message with the opcode that names the command. -/
def asOp (op : Nat) (m : Msg) : Msg := { m with op := BitVec.ofNat 8 op }

/-- Mortar messages arrive only on ports in MORTAR mode (03 R86); `f` handles one. A warm reset discards new messages on REQ and SNP
(18 R705). -/
def Dev.onMortar (d : Dev) (port op : Nat) (m : Msg) (f : Dev → Msg → Dev) : Dev :=
  if d.isMortar port && !(d.pwr.warm.isSome && (m.vc == 0#2 || m.vc == 1#2)) then d.taken port (asOp op m) (fun d => f d (asOp op m))
  else d

/-! ### Requests -/

/-- RdShared arrives (R152, R153). -/
def Dev.rdShared (d : Dev) (port : Nat) (m : Msg) : Dev := d.onMortar port 1 m (fun d m => d.requestIn port m)
/-- RdOwn arrives (R152, R153). -/
def Dev.rdOwn (d : Dev) (port : Nat) (m : Msg) : Dev := d.onMortar port 2 m (fun d m => d.requestIn port m)
/-- RdOnce arrives (R152, R153). -/
def Dev.rdOnce (d : Dev) (port : Nat) (m : Msg) : Dev := d.onMortar port 3 m (fun d m => d.requestIn port m)
/-- WrLine arrives (R152, R153). -/
def Dev.wrLineMsg (d : Dev) (port : Nat) (m : Msg) : Dev := d.onMortar port 4 m (fun d m => d.requestIn port m)
/-- WrPartial arrives (R152, R153). -/
def Dev.wrPartial (d : Dev) (port : Nat) (m : Msg) : Dev := d.onMortar port 5 m (fun d m => d.requestIn port m)
/-- Atomic arrives (R176, R177, R202, R211). -/
def Dev.atomicMsg (d : Dev) (port : Nat) (m : Msg) : Dev := d.onMortar port 6 m (fun d m => d.requestIn port m)
/-- Sweep arrives (R158). -/
def Dev.sweepMsg (d : Dev) (port : Nat) (m : Msg) : Dev := d.onMortar port 7 m (fun d m => d.requestIn port m)
/-- Fence arrives (R175, R198). -/
def Dev.fenceMsg (d : Dev) (port : Nat) (m : Msg) : Dev := d.onMortar port 8 m (fun d m => d.requestIn port m)

/-! ### Requests of CXL hosts (03 R89, R139, R178) -/

/-- The committed decoder that claims an HPA: its number (02 R75-R77, R81). -/
def Dev.decoderOf (d : Dev) (port hpa : Nat) : Option Nat :=
  (List.range 8).find? (fun k =>
    let i := port * 8 + k
    match kget d.hdm i with
    | some b => d.rb .XLT_HDM_MAP_VALID i && decide (b ≤ hpa ∧ hpa < b + d.rf .XLT_HDM_MAP_SIZE i * 2 ^ 28)
    | none => false)

/-- The agent id under which the host on a CXL port is tracked (R131). -/
def Dev.hostId (d : Dev) (port : Nat) : Nat := d.devnum * 256 + port * 16

/-- A CXL request as the Mortar request that stands for it. -/
def Dev.cxlMsg (d : Dev) (port k op : Nat) (q : CxlReq) : Msg :=
  let i := port * 8 + k
  let b := sget 0 d.hdm i
  let cva := d.rf .XLT_HDM_MAP_CVA_BASE i * 2 ^ 28 + (q.hpa.toNat - b) / 64 * 64
  { homeMsg op (if isRead op then 3 else 5) 0 with
      chamber := BitVec.ofNat 4 (d.rf .XLT_HDM_MAP_CHAMBER i), src := BitVec.ofNat 16 (d.hostId port),
      tag := q.tag.setWidth 20, addr := BitVec.ofNat 56 cva, args := if op = 5 then q.mask else 0, data := q.data }

/-- The M2S channel of a Mortar opcode that stands for a CXL request: 0 Req, 1 RwD (03 R89). -/
def cxlChannel (op : Nat) : Nat := if isWrite op then 1 else 0

/-- Credit of an M2S channel returns to the host (03 R89). -/
def Dev.cxlReturn (d : Dev) (port ch : Nat) : Dev := d.send (.cxlCredit port ch)

/-- A request through an HDM decoder is served (R139, R178); an HPA that no committed decoder claims is not the device's (02 R81). `op`
is the Mortar opcode that an HDM-DB window gives it, `hop` the one that an HDM-H window gives it. -/
def Dev.cxlServe (d : Dev) (port : Nat) (q : CxlReq) (op hop : Nat) : Dev :=
  match d.decoderOf port q.hpa.toNat with
  | none => d
  | some k =>
    let db := d.rb .XLT_HDM_MAP_DB (port * 8 + k)
    let m := d.cxlMsg port k (if db then op else hop) q
    let c := m.chamber.toNat
    let sl := newSlot .cxl port m (some q) 0 0 d.gt 0 db
    let id := freshKey d.coh.slots 0
    if !bit (d.rf .HUB_FP_CFG_CHAMBERS port) c || !d.chmDefined c then (d.setSlot id sl).finishCheck id sl
    else if d.chmState c ≠ 1 then
      if isRead m.opc then d.finishPoison id sl else d.finishAck id sl 0x21
    else (d.takeIn .cxl port m (some q) 0 db).slotsGo

/-- A request at a CXL port can be taken up: the tracker has room, and so has its Chamber's share of the Hub (03 R89, R154). -/
def Dev.cxlRoom (d : Dev) (port op : Nat) (q : CxlReq) : Bool :=
  !d.trackerFull && (match d.decoderOf port q.hpa.toNat with
    | some k => d.reqRoom (d.rf .XLT_HDM_MAP_CHAMBER (port * 8 + k)) (if isRead op then 3 else 5)
    | none => true)

/-- A CXL request arrives: while the tracker or its Chamber's share is full, or an earlier request of its channel waits, it waits at its
port, and the credit of its channel is withheld (03 R89, R154). -/
def Dev.cxlRequest (d : Dev) (port : Nat) (q : CxlReq) (op hop : Nat) : Dev :=
  if !d.isCxl port || d.pwr.warm.isSome then d
  else
    let ch := cxlChannel op
    if !d.cxlRoom port op q || d.coh.cxlWait.any (fun x => x.1 == port && cxlChannel x.2.1 == ch) then
      { d with coh.cxlWait := d.coh.cxlWait ++ [(port, op, hop, q)],
               coh.cxlOwed := sput 0 d.coh.cxlOwed (port * 4 + ch) (sget 0 d.coh.cxlOwed (port * 4 + ch) + 1) }
    else (d.cxlServe port q op hop).cxlReturn port ch

/-- The oldest request at a CXL port that can be taken up, each channel in its order. -/
def Dev.cxlNext (d : Dev) : Option (Nat × Nat × Nat × CxlReq) :=
  let l := d.coh.cxlWait
  l.find? (fun x => d.cxlRoom x.1 x.2.1 x.2.2.2 && l.find? (fun y => y.1 == x.1 && cxlChannel y.2.1 == cxlChannel x.2.1) == some x)

/-- Requests that wait at CXL ports are taken up, the requests of a channel in arrival order, while the tracker and their shares have room
(R89, R154). -/
def Dev.portsGo (d : Dev) : Nat → Dev
  | 0 => d
  | fuel + 1 =>
    match d.cxlNext with
    | none => d
    | some (port, op, hop, q) =>
      let i := port * 4 + cxlChannel op
      let d := { d with coh.cxlWait := d.coh.cxlWait.erase (port, op, hop, q),
                        coh.cxlOwed := sput 0 d.coh.cxlOwed i (sget 0 d.coh.cxlOwed i - 1) }
      ((d.cxlServe port q op hop).cxlReturn port (cxlChannel op)).portsGo fuel

/-- What has come free goes on: Sweeps, waiting requests, requests at CXL ports. -/
def Dev.goOn (d : Dev) : Dev := (d.sweepsGo.slotsGo).portsGo (d.coh.cxlWait.length + 1)

/-! ### Evicts and the answers of snoops (R156, R157, R172) -/

/-- A line of a T1 or T2 page is written back, which can wait for nothing (R140): to its promotion frame, or to the copy that fills one,
which is started where none is under way; none where the promotion pool is short (07 R269, R272, R287, log 18). -/
def Dev.lateWrite (d : Dev) (c line : Nat) (data : Bytes) (poison : Bool) (agent : Nat) : Option Dev :=
  let pg := line / 1024
  let filling (m : Map Frame) : Bool := match frameOf m pg with | some (_, fr) => fr.st == .filling | none => false
  let whole : Bool := match frameOf d.tier.promo pg with | some (_, fr) => fr.valid % 0x10000 == 0xFFFF | none => false
  if filling d.tier.promo then some (d.addLate .promo line data poison agent)
  else if whole then some (d.homeWrite line fullMask data poison .none)
  else if filling d.tier.stage then some (d.addLate .stage line data poison agent)
  else (d.startFill .promo c pg 0xFFFF false).map (fun d => d.addLate .promo line data poison agent)

/-- A modified line comes back from its owner: it is written at the home, at the lender of a lent line, or dropped where
the extent is LOST or no longer served (R152, 02 R57, R64, 16 R624). -/
def Dev.writeBack (d : Dev) (line : Nat) (data : Bytes) (poison : Bool) (agent : Nat) : Dev :=
  let n := lineExt line
  let e := d.extent n
  match e.st with
  | .open_ | .immutable | .revoking =>
    match extKind n with
    | .lent =>
      (d.setPoison line poison).askOut e.port
        (reqMsg 4 5 true e.chamber (e.target * 2 ^ 28 + line % 2 ^ 22 * 64) 0 (padTo 64 data)) .none
        (d.devnum * 2 ^ 42 + line)
    | .t1 | .t2 =>
      (d.lateWrite e.chamber line data poison agent).getD ((d.bump .TIE_CNT_SHORT e.chamber).logShortDrop e.chamber line agent)
    | _ => d.homeWrite line fullMask data poison .none
  | .lost => d.logLost e.chamber line true agent
  | _ => d

/-- An answer to an open snoop (R137, R157): dirty data is written back for a Held line and discarded with a PROTOCOL
entry for a Shared-read line; KEEP leaves a shared copy where the snoop allowed it. -/
def Dev.snoopAnswer (d : Dev) (port : Nat) (line agent xtag : Nat) (dirty keep : Bool) (data : Bytes) (m : Msg) : Dev :=
  match kget d.coh.txns line with
  | none => d.bump .DIR_CNT_STALE (lineSlice line)
  | some t =>
    match t.open_.find? (fun s => s.agent == agent && s.xtag == xtag) with
    | none => d.bump .DIR_CNT_STALE (lineSlice line)
    | some s =>
      let held : Bool := match kget d.coh.dir line with | some e => e.cls == .held | none => true
      let d := if dirty then (if held then d.writeBack line data false agent else d.logProtocol port m) else d
      let t := { t with open_ := t.open_.erase s,
                        kept := if keep && s.isRecall && s.toShared then t.kept ++ [agent] else t.kept }
      { d with coh.txns := kput d.coh.txns line t }.afterSnoop line

/-- An Evict that answers nothing (R137, R150, R152, R156, R172). -/
def Dev.evictHere (d : Dev) (port line agent : Nat) (dirty poison : Bool) (data : Bytes) (m : Msg) : Dev :=
  match kget d.coh.dir line with
  | none => d.bump .DIR_CNT_STALE (lineSlice line)
  | some e =>
    if !dirHolds e agent then d.bump .DIR_CNT_STALE (lineSlice line)
    else
      let d := if dirty then
          (if e.cls = .held then d.writeBack line data poison agent else d.logProtocol port m) else d
      match kget d.coh.txns line with
      | some t =>
        if t.open_.any (fun s => s.agent == agent) then
          let t := { t with open_ := t.open_.map (fun s => if s.agent = agent then { s with crossed := s.crossed || dirty } else s) }
          { d with coh.txns := kput d.coh.txns line t }
        else d.dirDrop line agent
      | none => d.dirDrop line agent

/-- Evict arrives (R156, R157); one for a line of another home goes on to that home (R134). -/
def Dev.evictMsg (d : Dev) (port : Nat) (m : Msg) : Dev :=
  d.onMortar port 9 m (fun d m =>
    let a := m.args.toNat
    let agent := m.src.toNat
    let answer := !bit a 1
    let c := m.chamber.toNat
    if d.peerShut port then d
    else if !d.senderOk port m || (m.af && !d.rb .HUB_FP_CFG_PEER port) then
      let d := d.logProtocol port m
      if answer then d.refuse port m 0x7F else d
    else if !bit (d.rf .HUB_FP_CFG_CHAMBERS port) c || !d.chmDefined c then
      let d := d.failCheck c (if m.af then 0 else 1) m.addr.toNat 9 agent
      if answer then d.refuse port m 0x7F else d
    else
      let cva := m.addr.toNat % 2 ^ 52
      let pa := if m.af then some m.addr.toNat else match d.lineNamed agent m.chamber.toNat cva with
        | some l => some (l * 64)
        | none => d.paNow m.chamber.toNat cva
      match pa with
      | none => if answer then (d.bump .DIR_CNT_STALE 0).refuse port m 0 else d.bump .DIR_CNT_STALE 0
      | some pa =>
        match d.localLine pa with
        | some (line, _) =>
          if answer then
            ((d.evictHere port line agent (bit a 0) false m.data m).refuse port m 0).goOn
          else d.snoopAnswer port line agent m.xtag.toNat (bit a 0) (bit a 2) m.data m
        | none =>
          match d.route pa with
          | .away p _ =>
            /- CLS and T0S come from the leaf, where the CVA form does not carry them (R134, R143) -/
            let leaf : Cls × Bool := if m.af then (msgCls m, m.t0s) else match d.pageSeen m.chamber.toNat cva with
              | .page _ k t => (k, t)
              | _ => (.held, false)
            if answer then
              let d := d.tick
              let id := freshKey d.coh.slots 0
              let sl := newSlot .mortar port m none d.coh.clock 0 d.gt 0 false
              (d.setSlot id sl).forward id { sl with pa := pa, cls := leaf.1, t0s := leaf.2 } p
            else d.send (.msg p { m with af := true, addr := BitVec.ofNat 56 pa, cls := leaf.1 == .sharedRead, t0s := leaf.2,
                                         eng := m.af && m.eng })
          | _ => if answer then d.refuse port m 0x7F else d.bump .DIR_CNT_STALE 0)

/-! ### Messages of other homes (R134, R163, R174) -/

/-- A Recall or Inval of another home for an agent: delivered on the agent's port, to a CXL host as BISnp, whose tag is a snoop tag of this
device, not of that home (R134, R178, DESIGN CHOICE, log 19). -/
def Dev.passSnoop (d : Dev) (m : Msg) : Dev :=
  let a := m.dst.toNat
  let p := d.portTo a
  if agentDev a = d.devnum && d.isCxl p then
    let shared := m.op == 0x20#8 && bit m.args.toNat 0
    let x := d.coh.nextXtag
    let d := { d with coh.passed := d.coh.passed ++ [(p, x, m)], coh.nextXtag := (x + 1) % 2 ^ 16 }
    d.send (.cxl p (if shared then .biSnpData else .biSnpInv) x (d.nameOf a (m.addr.toNat / 64)).2.2 false [])
  else
    let nm := d.nameOf a (m.addr.toNat / 64)
    d.send (.msg p { m with af := nm.1, chamber := if nm.1 then m.chamber else BitVec.ofNat 4 nm.2.1, addr := BitVec.ofNat 56 nm.2.2 })

/-- Recall for an agent arrives at its attach device (R134). -/
def Dev.recallFor (d : Dev) (port : Nat) (m : Msg) : Dev :=
  d.onMortar port 0x20 m (fun d m => if d.peerShut port then d else d.passSnoop m)

/-- Inval for an agent arrives at its attach device (R134). -/
def Dev.invalFor (d : Dev) (port : Nat) (m : Msg) : Dev :=
  d.onMortar port 0x21 m (fun d m => if d.peerShut port then d else d.passSnoop m)

/-- The slot for which a request of the device was forwarded. -/
def Dev.slotOf (d : Dev) (r : DevReq) : Option (Nat × Slot) :=
  match r.why with
  | .slot id => (d.slot id).bind (fun sl => if sl.phase = .forward then some (id, sl) else none)
  | _ => none

/-- Retry arrives (R163, R167): a request of the device is sent again under the ticket; the Retry of an agent's forwarded
request goes to the agent, which keeps its turn (R134); HOLD restarts the requester's timer. -/
def Dev.retryMsg (d : Dev) (port : Nat) (m : Msg) : Dev :=
  d.onMortar port 0x22 m (fun d m =>
    if d.peerShut port then d
    else match d.findReq m with
    | none => d.bump .MRT_CNT_LATE
    | some r =>
      let hold := bit m.args.toNat 0
      let agentSlot := (d.slotOf r).bind (fun x => if x.2.cxl.isNone then some x else none)
      match agentSlot with
      | some (id, sl) =>
        let d := d.send (.msg sl.port { m with af := sl.msg.af, addr := sl.msg.addr, tc := sl.msg.tc })
        if hold then d
        else { (d.dropReq r).freeSlot id with coh.retried := d.coh.retried ++ [(sl.who, sl.msg.tag.toNat, sl.arr)] }
      | none =>
        if hold then d
        else d.send (.msg port { r.msg with rsv := true, xtag := m.xtag, tc := 2 }))

/-- A final answer arrives (R134, R174): its requester takes it, and what it frees goes on; one that no request awaits is
counted LATE. -/
def Dev.finalAnswer (d : Dev) (port : Nat) (m : Msg) : Dev :=
  if d.peerShut port then d
  else match d.findReq m with
    | none => d.bump .MRT_CNT_LATE
    | some r =>
      let d := if m.opc = 0x26 ∧ m.status = 0x7F ∧ bit m.args.toNat 0 = false then d.tallyPort port 5 else d
      (d.takeAnswer r m).goOn

/-- Grant arrives (R134). -/
def Dev.grantMsg (d : Dev) (port : Nat) (m : Msg) : Dev := d.onMortar port 0x23 m (fun d m => d.finalAnswer port m)
/-- Data arrives (R134). -/
def Dev.dataArrives (d : Dev) (port : Nat) (m : Msg) : Dev := d.onMortar port 0x24 m (fun d m => d.finalAnswer port m)
/-- PoisonData arrives (02 R64). -/
def Dev.poisonArrives (d : Dev) (port : Nat) (m : Msg) : Dev := d.onMortar port 0x25 m (fun d m => d.finalAnswer port m)

/-- The BMIR that an Ack answers: by its TAG and the mirror's address (R148, 17 R666). -/
def Dev.bmirOf (d : Dev) (m : Msg) : Option Bmir :=
  if m.dst = 0xFFFF then
    d.coh.bmirs.find? (fun b => b.tag == m.tag.toNat &&
      d.rf .CMP_BUTTRESS_PEER b.entry == m.addr.toNat / 2 ^ 48 &&
      d.rf .CMP_BUTTRESS_PEER_EXT b.entry == m.addr.toNat / 2 ^ 28 % 2 ^ 20)
  else none

/-- What waited for a mirror goes on once its BMIRs are answered: a slot's saved answer is sent, an operation's record
written (17 R666). -/
def Dev.mirrored (d : Dev) (why : ReqFor) : Dev :=
  if d.coh.bmirs.any (fun b => b.why == why) then d
  else match why with
    | .slot id =>
      match d.slot id with
      | none => d
      | some sl =>
        match sl.phase, sl.ans with
        | .mirror, a :: _ =>
          let m := if a.data.isEmpty then ackMsg sl.msg a.status false
            else shortMsg sl.msg (field a.data 0 16) false
          (d.finish id sl m).wakeAll
        | _, _ => d
    | .op id => d.writeRecord id
    | _ => d

/-- Ack arrives: for a BMIR, or for a request of the device (R134, R174, 17 R666). -/
def Dev.ackArrives (d : Dev) (port : Nat) (m : Msg) : Dev :=
  d.onMortar port 0x26 m (fun d m =>
    match d.bmirOf m with
    | some b => if d.peerShut port then d else
        Dev.mirrored { d with coh.bmirs := d.coh.bmirs.erase b } b.why
    | none => d.finalAnswer port m)

/-! ### Events of the home -/

/-- The set scan returns to the set where the first Sweep that it serves joined it: that Sweep goes on; one that joined later waits for
its own (R159, log 121). -/
def Dev.sweepScanDone (d : Dev) : Dev :=
  let all := d.coh.slots.filter (fun e => e.2.phase == .sweep && e.2.scan)
  match all.find? (fun e => all.all (fun x => decide (e.2.seq ≤ x.2.seq))) with
  | none => d
  | some (id, _) => ({ d with coh.slots := kmod d.coh.slots id (fun sl => { sl with scan := false }) }).goOn

/-- The tier access of a slot is done (R186). -/
def Dev.tierServiceDone (d : Dev) (id : Nat) (errs : List LineErr) : Dev :=
  match d.slot id with
  | some sl => if sl.phase = .tier then (d.perform id errs).goOn else d
  | none => d

/-- An open snoop of a line to an agent. -/
def Dev.openSnoop (d : Dev) (line agent : Nat) (isRecall : Bool) : Option (Txn × Snoop) :=
  (kget d.coh.txns line).bind (fun t =>
    (t.open_.find? (fun s => s.agent == agent && s.isRecall == isRecall)).map (fun s => (t, s)))

/-- A sharer is given up: INVAL_TO, counted in DIR_CNT, the agent reported (R172, R173). -/
def Dev.snoopLost (d : Dev) (line : Nat) (t : Txn) (s : Snoop) : Dev :=
  let d := (d.bump .DIR_CNT_INVAL_TO (lineSlice line)).logEvent
    { kind := 4, u := false, aform := 0, agent := s.agent, addr := d.paOf line, tag := (d.extent (lineExt line)).chamber }
  let d := d.reportAgent s.agent
  { d with coh.txns := kput d.coh.txns line { t with open_ := t.open_.erase s } }.afterSnoop line

/-- MRT_RECALL_TMO ends for a Recall (R172). -/
def Dev.recallTimeout (d : Dev) (line agent : Nat) : Dev :=
  match d.openSnoop line agent true with
  | none => d
  | some (t, s) =>
    if s.crossed then d.snoopLost line t s
    else
      let d := (d.poison (d.phys line)).bump .MRT_CNT_RECALL_TO
      let d := d.logEvent { kind := 3, u := true, aform := 0, agent := agent, addr := d.paOf line,
                            tag := (d.extent (lineExt line)).chamber }
      let d := d.reportAgent agent
      { d with coh.txns := kput d.coh.txns line { t with open_ := t.open_.erase s, poisoned := true } }.afterSnoop line

/-- MRT_RECALL_TMO ends for an Inval (R173). -/
def Dev.invalTimeout (d : Dev) (line agent : Nat) : Dev :=
  match d.openSnoop line agent false with
  | none => d
  | some (t, s) => d.snoopLost line t s

/-- MRT_REQ_TMO ends for a request of the device, or for a CXL host's request that waits on a fault (R174, 08 R325). -/
def Dev.reqTimeout (d : Dev) (src tag : Nat) : Dev :=
  match d.coh.reqs.find? (fun r => r.msg.src.toNat == src && r.msg.tag.toNat == tag) with
  | some r =>
    let d := (d.logReqTo r.port r.msg).reportPartner r
    (d.endReq r).goOn
  | none =>
    match d.coh.slots.find? (fun e => e.2.cxl.isSome && e.2.who == src && e.2.msg.tag.toNat == tag &&
        (match e.2.phase with | .fault _ | .stalled _ => true | _ => false)) with
    | some (id, sl) => if isRead sl.msg.opc then d.finishPoison id sl else d.finishAck id sl 0x50
    | none => d

/-- A ticket is not used within MRT_RSV_TMO (R164, R165). -/
def Dev.ticketExpire (d : Dev) (t : Nat) : Dev :=
  match kget d.coh.tickets t with
  | none => d
  | some _ => (((d.endTicket t).bump .MRT_CNT_TKT_EXP).unwithhold).wakeAll

/-- The summed wait of a request reaches MRT_REQ_TMO / 2 (R167). -/
def Dev.hold (d : Dev) (id : Nat) : Dev :=
  match d.slot id with
  | none => d
  | some sl =>
    let waits := match sl.phase with
      | .fault _ | .stalled _ | .page _ | .gateway | .held _ | .lender => true
      | _ => false
    if waits && sl.cxl.isNone then
      (d.setSlot id { sl with holds := sl.holds + 1, waited := sl.waited + (d.gt - sl.since), since := d.gt }).send
        (.msg sl.port { ansMsg 0x22 2 sl.msg with xtag := BitVec.ofNat 16 (sl.ticket - 1), args := 1 })
    else d

/-- Earlier requests of the slot's agent that its Fence or release waits for, those answered Retry or waiting at their port among them
(R148, R162);
`homes` limits them to one device's lines, and `sweeps` says whether Sweeps count (R175, R201, R210). -/
def Dev.earlier (d : Dev) (id : Nat) (sl : Slot) (sweeps : Bool) (homes : Option Nat) : Bool :=
  d.coh.slots.any (fun e => e.1 != id && e.2.who == sl.who && decide (e.2.arr < sl.arr) &&
    (sweeps || e.2.msg.opc != 7) &&
    (match homes with | some n => e.2.pa / 2 ^ 48 == n || decide (2 ^ 60 ≤ e.2.pa) | none => true)) ||
  d.coh.tickets.any (fun e => e.2.src == sl.who && decide (e.2.arr < sl.arr) && (sweeps || e.2.op != 7) &&
    (match homes with | some n => n == d.devnum || decide (2 ^ 46 ≤ e.2.line) | none => true)) ||
  d.coh.withheld.any (fun x => x.2.1.src.toNat == sl.who && (sweeps || x.2.1.opc != 7)) ||
  d.coh.retried.any (fun r => r.1 == sl.who && decide (r.2.2 < sl.arr))

/-- The first slot of an agent in phase order with an opcode. -/
def Dev.ordered (d : Dev) (agent op : Nat) : Option (Nat × Slot) :=
  d.coh.slots.find? (fun e => e.2.who == agent && e.2.msg.opc == op && e.2.phase == .order)

/-- The gateway writes of a Chamber before an ordering point: none left, or being flushed (14 R558). -/
def Dev.flushPoint (d : Dev) (c : Nat) (k : Dev → Dev) : Dev :=
  if (d.dirtyWins c).isEmpty then k d else d.flushAll c

/-- Every request admitted before a Fence has its final answer: the Fence is answered (R175, 14 R558). -/
def Dev.fenceComplete (d : Dev) (agent : Nat) : Dev :=
  match d.ordered agent 8 with
  | none => d
  | some (id, sl) =>
    if d.earlier id sl true none then d
    else d.flushPoint sl.chamber (fun d =>
      let fl := d.flushFailed sl.chamber
      let late := d.coh.fenceTo.contains agent || fl
      let d := if fl then d.clearFlushFail sl.chamber else d
      let d := { d with coh.fenceTo := d.coh.fenceTo.filter (fun a => a != agent) }
      d.finishAck id sl (if late then 0x50 else 0))

/-- A held release atomic is sent on once the earlier requests of its agent to the homes of its scope have their final
answers (R201, R209, R210). -/
def Dev.releaseSend (d : Dev) (id : Nat) : Dev :=
  match d.slot id with
  | none => d
  | some sl =>
    if sl.phase ≠ .order ∨ sl.msg.opc ≠ 6 then d
    else
      let homes := if bits sl.msg.args.toNat 8 2 = 3 then none
        else (d.paSeen sl.chamber (sl.msg.addr.toNat % 2 ^ 52)).map (fun pa => pa / 2 ^ 48)
      if d.earlier id sl false homes then d
      else d.flushPoint sl.chamber (fun d => (d.orderDone id).goOn)

/-! ### CXL.mem (R139, R178) -/

/-- A CXL host's Evict of a line of another home goes to that home, whose Ack completes it (R134, R178). -/
def Dev.cxlEvictAway (d : Dev) (port : Nat) (q : CxlReq) (m : Msg) (line : Nat) (dirty : Bool) : Option Dev :=
  let own := (d.hostId port, line)
  match d.route (line * 64) with
  | .away p _ =>
    if dirty && !d.coh.owned.contains own then none
    else
      let d := ({ d with coh.owned := d.coh.owned.filter (fun x => x != own) }).tick
      let id := freshKey d.coh.slots 0
      let m := { m with vc := 2, args := BitVec.ofNat 64 (b2n dirty), data := if dirty then m.data else [] }
      let sl := { newSlot .cxl port m (some q) d.coh.clock 0 d.gt 0 true with pa := line * 64 }
      some ((d.setSlot id sl).forward id sl p)
  | _ => none

/-- A CXL.mem writeback or clean eviction of a tracked line (R178); `none` where the line is not the host's own. One that fails the Chamber
check goes no further (06 R219, R221). -/
def Dev.cxlEvict (d : Dev) (port : Nat) (q : CxlReq) (dirty : Bool) : Option Dev :=
  if !d.isCxl port then none
  else match d.decoderOf port q.hpa.toNat with
    | none => none
    | some k =>
      if !d.rb .XLT_HDM_MAP_DB (port * 8 + k) then none
      else
        let m := d.cxlMsg port k 9 q
        let c := m.chamber.toNat
        let cva := m.addr.toNat % 2 ^ 52
        let cmp (d : Dev) : Dev := d.send (.cxl port .cmp q.tag.toNat (q.hpa.toNat / 64 * 64) false [])
        if !bit (d.rf .HUB_FP_CFG_CHAMBERS port) c || !d.chmDefined c then
          some (cmp (d.failCheck c 2 q.hpa.toNat 9 (d.hostId port)))
        else
        let pa := match d.lineNamed (d.hostId port) c (q.hpa.toNat / 64 * 64) with
          | some l => some (l * 64)
          | none => d.paNow c cva
        match pa with
        | none => if dirty then none else some (cmp d)
        | some pa =>
          match d.localLine pa with
          | some (line, _) =>
            let owner := match kget d.coh.dir line with
              | some e => e.st == .he && e.holders.contains (d.hostId port)
              | none => false
            if dirty && !owner then none
            else some (cmp (d.evictHere port line (d.hostId port) dirty q.poison q.data m)).goOn
          | none => d.cxlEvictAway port q m (pa / 64) dirty

/-- The Mortar opcode of a CXL read by its MetaValue (R178). -/
def metaOp : MetaValue → Nat
  | .any => 2
  | .shared => 1
  | .invalid | .noUpdate => 3

/-- MemRd arrives (R178). -/
def Dev.memRd (d : Dev) (port : Nat) (q : CxlReq) : Dev := d.cxlRequest port q (metaOp q.mval) 3

/-- MemRdData arrives (R178). -/
def Dev.memRdData (d : Dev) (port : Nat) (q : CxlReq) : Dev := d.cxlRequest port q (metaOp q.mval) 3

/-- MemWr arrives: the owner's writeback, or WrLine (R178). -/
def Dev.memWr (d : Dev) (port : Nat) (q : CxlReq) : Dev :=
  match d.cxlEvict port q true with
  | some d' => d'.cxlReturn port 1
  | none => d.cxlRequest port q 4 4

/-- MemWrPtl arrives (R178). -/
def Dev.memWrPtl (d : Dev) (port : Nat) (q : CxlReq) : Dev := d.cxlRequest port q 5 5

/-- MemClnEvct arrives (R178). -/
def Dev.memClnEvct (d : Dev) (port : Nat) (q : CxlReq) : Dev :=
  if d.isCxl port then ((d.cxlEvict port q false).getD d).cxlReturn port 0 else d

/-- MemInv arrives; with MetaValue Invalid it is a clean Evict (R178). -/
def Dev.memInv (d : Dev) (port : Nat) (q : CxlReq) : Dev :=
  if !d.isCxl port then d
  else (if q.mval = .invalid then (d.cxlEvict port q false).getD d else d).cxlReturn port 0

/-- BIRspS or BIRspI answers a BISnp (R178): of this home, or of the home whose snoop was passed on (R134). -/
def Dev.biRsp (d : Dev) (port : Nat) (q : CxlReq) (keep : Bool) : Dev :=
  if !d.isCxl port then d
  else
    let h := d.hostId port
    match d.coh.txns.find? (fun e => e.2.open_.any (fun s => s.agent == h && s.xtag == q.snp.toNat)) with
    | some (line, _) => d.snoopAnswer port line h q.snp.toNat false keep [] (homeMsg 9 1 2)
    | none =>
      match d.coh.passed.find? (fun x => x.1 == port && x.2.1 == q.snp.toNat) with
      | some x =>
        let s := x.2.2
        let m := { homeMsg 9 1 2 with af := true, chamber := s.chamber, src := BitVec.ofNat 16 h, tag := s.tag, xtag := s.xtag,
                                      addr := s.addr, args := BitVec.ofNat 64 (2 + 4 * b2n keep) }
        let own := (h, s.addr.toNat / 64)
        let d := { d with coh.passed := d.coh.passed.erase x, coh.owned := d.coh.owned.filter (fun y => y != own) }
        match d.route s.addr.toNat with
        | .away p _ => d.send (.msg p m)
        | _ => d
      | none => d.bump .DIR_CNT_STALE (q.hpa.toNat / 256 % 4)

/-- BIRspS arrives (R178). -/
def Dev.biRspS (d : Dev) (port : Nat) (q : CxlReq) : Dev := if d.isCxl port then (d.biRsp port q true).cxlReturn port 2 else d

/-- BIRspI arrives (R178). -/
def Dev.biRspI (d : Dev) (port : Nat) (q : CxlReq) : Dev := if d.isCxl port then (d.biRsp port q false).cxlReturn port 2 else d

/-- BIConflict arrives: BIConflictAck answers it (R178, log 19). -/
def Dev.biConflict (d : Dev) (port : Nat) (q : CxlReq) : Dev :=
  if d.isCxl port then (d.send (.cxl port .biConflictAck q.snp.toNat (q.hpa.toNat / 64 * 64) false [])).cxlReturn port 1 else d

end Sys2Proof.Machine
end

