-- ==== Sys2Proof/Machine/Extents.lean ====
section
/-!
DEFINITION. Extent commands and the commits of HDM decoders (02 R58-R64, R69-R77, R757, R758).
-/

namespace Sys2Proof.Machine

/-- The region of an extent number: its first extent and the one after its last (R44). -/
def regionOf (n : Nat) : Nat × Nat :=
  if n = 0 then (0, 1)
  else if n < 0x1000 then (1, 0x1000)
  else if n < 0x4000 then (0x1000, 0x4000)
  else if n < 0x8000 then (0x4000, 0x8000)
  else if n < 0x10000 then (0x8000, 0x10000)
  else if n < 0x20000 then (0x10000, 0x20000)
  else (0x20000, 0x100000)

/-- Backing of a LOST extent counts as present again (R58). -/
def Dev.backAgain (d : Dev) (n : Nat) : Bool :=
  let e := d.extent n
  match extKind n with
  | .t0 => true
  | .t1 => d.rb .XLT_T1_CFG_T1_OK
  | .t2 => match d.posSlot (extPos n) with
    | some k => d.rf .TIE_CART_STS_STATE k == 3
    | none => false
  | .lent => d.rb .HUB_FP_STS_LINK_UP e.port &&
      (match d.peerOf e.port with
       | some k => d.rf .TLY_DEV_STATE k != 3 && d.rf .TLY_DEV_STATE k != 0
       | none => true)
  | .remote => d.winUp e.chamber e.port
  | _ => false

/-- The extent holds the fault queue or the hot-page ring of a Chamber (08 R316, R332). -/
def Dev.holdsQueue (d : Dev) (n : Nat) : Bool :=
  (List.range 16).any (fun c => d.chmDefined c &&
    (d.rf .XLT_FQ_BASE_OFFSET c * 2 ^ 17 / 2 ^ 28 == n || (d.rb .XLT_HOT_BASE_EN c && d.rf .XLT_HOT_BASE_OFFSET c * 2 ^ 18 / 2 ^ 28 == n)))

/-- Why a command refuses an extent of its run (R73 codes; R58, R61): 0 when it does not. -/
def Dev.extRefuses (d : Dev) (op n : Nat) : Nat :=
  let st := (d.extent n).st
  let k := extKind n
  let kindOk : Bool := match op, k with
    | _, .device => false
    | _, .none => false
    | 1, .t0 => true
    | 1, .lent => true
    | 1, .remote => true
    | 1, _ => false
    | 4, k => k == .lent
    | 5, k => k == .remote
    | 6, k => k == .lent || k == .remote
    | _, _ => true
  let stOk : Bool := match op with
    | 1 | 6 => st == .free
    | 2 => st == .open_
    | 3 => st == .open_ || st == .immutable || st == .lost
    | _ => st == .absent
  if !kindOk then 2
  else if !stOk || d.inPool n || ((op == 2 || op == 3) && d.holdsQueue n) then 1
  else if op = 3 ∧ st = .immutable ∧ d.settleSource n = true then 5
  else 0

/-- The Bond enables the Chamber (R73, 06 R251). -/
def Dev.bondEnables (d : Dev) (c : Nat) : Bool := d.chmDefined c && bit d.act.enabled c

/-- The checks of a command in the order of R74: the result code and FAILED_AT, or none when all pass. Of a run that passes the end of
the T2 region the first extent beyond is 0x100000, which FAILED_AT cannot hold: it reads 0 (DESIGN CHOICE, log 129). -/
def Dev.extCheck (d : Dev) (op chamber first count : Nat) : Option (Nat × Nat) :=
  if op = 0 ∨ 6 < op then some (2, first)
  else if count = 0 then some (3, first)
  else if op = 1 ∧ d.bondEnables chamber = false then some (4, first)
  else if op = 4 ∧ count < 4 then some (3, first)
  else if (regionOf first).2 < first + count then some (3, (regionOf first).2 % 2 ^ 20)
  else
    ((List.range count).find? (fun i => d.extRefuses op (first + i) != 0)).map
      (fun i => (d.extRefuses op (first + i), first + i))

/-- An extent enters ABSENT: its entry names nothing further but its GEN and last owner. -/
def Dev.enterAbsent (d : Dev) (n : Nat) : Dev :=
  let e := d.extent n
  (match extKind n with | .lent | .t2 => d.clearMarks n | _ => d).setExt n
    { e with st := .absent, target := 0, port := 0 }

/-- A T2 extent that is freed has its blocks deallocated (07 R288, R290). -/
def Dev.deallocate (d : Dev) (n : Nat) : Dev :=
  match extKind n, d.extSlot n with
  | .t2, some k => (d.nvmeCmd k 9 (extInPos n * 65536) 65536 false .write).1
  | _, _ => d

/-- What FREE does to one extent (R58, R272, 07 R290, 16 R623). -/
def Dev.freeExt (d : Dev) (n : Nat) : Dev :=
  let lost := (d.extent n).st == .lost
  let d := (d.dropFrames n).deallocate n
  if lost && !d.backAgain n then d.enterAbsent n
  else (match extKind n with | .t2 => d.clearMarks n | _ => d).enterFree n

/-- An ASSIGN that must zero the extent first (R62). An extent that never had an owner names Chamber 0 as its last (DESIGN CHOICE,
log 130). -/
def Dev.zeroesFirst (d : Dev) (n chamber : Nat) : Bool :=
  (match extKind n with | .t0 | .lent => true | _ => false) && (d.extent n).chamber != chamber

/-- The zeroing of an extent: its bytes; of a lent one the lender's memory holds them, which the WrLine messages have zeroed (R62, R64). -/
def Dev.zeroExt (d : Dev) (n : Nat) : Dev :=
  match extKind n with
  | .lent => d.clearMarks n
  | _ => (d.zeroMem (n * 2 ^ 28) (2 ^ 28)).clearMarks n

/-- The zeroing of the extent in hand is done: of a lent one, its lender has answered every burst (R62, R64). -/
def Dev.zeroed (n : Nat) (k : ExtCmd) : Bool := match extKind n with | .lent => decide (2 ^ 20 ≤ k.zeros) | _ => true

/-- A command has changed its last extent (R757). FAILED_AT then reads 0; while BUSY it and XLT_EXT_RESULT hold what the command before left
(DESIGN CHOICE, log 129). -/
def Dev.extFinish (d : Dev) : Dev :=
  { (((d.wf .XLT_EXT_RESULT_CODE 0 0).wf .XLT_EXT_STS_FAILED_AT 0 0).wb .XLT_EXT_STS_BUSY 0 false) with extCmd := none }

/-- The command with the next extent of its run in hand. -/
def ExtCmd.next (k : ExtCmd) : ExtCmd := { k with done := k.done + 1, zeros := 0, lost := false }

/-- One extent of the run has changed: the command goes on to the next, changing at once those that need no work of
their own, and ends after the last (R757). -/
def Dev.extNext (d : Dev) : Nat → Dev
  | 0 => d
  | fuel + 1 =>
    match d.extCmd with
    | none => d
    | some k =>
      if k.count ≤ k.done then d.extFinish
      else
        let n := k.first + k.done
        let e := d.extent n
        let step (d : Dev) : Dev := { d with extCmd := some k.next }
        let port := d.rf .XLT_EXT_ARG_PORT
        let target := d.rf .XLT_EXT_ARG_TARGET
        match k.op with
        | 1 => if d.zeroesFirst n k.chamber then (match extKind n with | .lent => d.zeroSend | _ => d)
               else (step (d.setExt n { e with st := .open_, chamber := k.chamber })).extNext fuel
        | 2 | 3 => d
        | 6 => (step (d.enterAbsent n)).extNext fuel
        | _ => (step ((d.setExt n { e with target := target + k.done, port := port }).enterFree n)).extNext fuel

/-- A write of XLT_EXT_CMD (R71-R74, R757); once a warm reset has started none acts. -/
def Dev.extCommand (d : Dev) (op chamber : Nat) : Dev :=
  if d.pwr.warm.isSome then d
  else if d.rb .XLT_EXT_STS_BUSY then d.wb .XLT_EXT_STS_OVERRUN 0 true
  else
    let first := d.rf .XLT_EXT_SEL_EXTENT
    let count := d.rf .XLT_EXT_SEL_COUNT
    match d.extCheck op chamber first count with
    | some (code, at_) => (d.wf .XLT_EXT_RESULT_CODE 0 code).wf .XLT_EXT_STS_FAILED_AT 0 at_
    | none =>
      let d := d.wb .XLT_EXT_STS_BUSY 0 true
      { d with extCmd := some { op := op, chamber := chamber, first := first, count := count, done := 0, zeros := 0 } }.extNext (count + 1)

/-- ASSIGN (R62). -/
def Dev.assign (d : Dev) (chamber : Nat) : Dev := d.extCommand 1 chamber
/-- SEAL (R60). -/
def Dev.seal (d : Dev) : Dev := d.extCommand 2 0
/-- FREE (R60, R61). -/
def Dev.freeCmd (d : Dev) : Dev := d.extCommand 3 0
/-- LEND_ATTACH (R63). -/
def Dev.lendAttach (d : Dev) : Dev := d.extCommand 4 0
/-- REMOTE_ATTACH (R58, R65). -/
def Dev.remoteAttach (d : Dev) : Dev := d.extCommand 5 0
/-- DETACH (R58). -/
def Dev.detach (d : Dev) : Dev := d.extCommand 6 0

/-- The zeroing of the extent that ASSIGN has reached ends: the extent enters OPEN; one lost meanwhile is LOST for its new owner (R58, R59,
R62, R757). -/
def Dev.extZeroed (d : Dev) : Dev :=
  match d.extCmd with
  | none => d
  | some k =>
    let n := k.first + k.done
    if k.op ≠ 1 ∨ d.pwr.warm.isSome = true ∨ Dev.zeroed n k = false then d
    else
      let e := d.extent n
      let d := match e.st with
        | .free => (d.zeroExt n).setExt n { e with st := .open_, chamber := k.chamber }
        | .lost => d.setExt n { e with chamber := k.chamber }
        | _ => d
      ({ d with extCmd := some k.next }.extNext (k.count + 1)).slotsGo

/-- An access admitted before the command still works on the extent; for SEAL only writes count (R60): of an agent or host in its slot,
of an engine that waits, of either at the lender, or of a settle that reads it. -/
def Dev.extInUse (d : Dev) (n : Nat) (writesOnly : Bool) : Bool :=
  d.coh.slots.any (fun e => e.2.pa / 2 ^ 28 == d.devnum * 2 ^ 20 + n && e.2.passed &&
    (isWrite e.2.msg.opc || (isRead e.2.msg.opc && !writesOnly))) ||
  (!writesOnly && d.settleSource n) ||
  d.coh.admitted.any (fun x => x.2.1 == n && (x.2.2 || !writesOnly) && d.waitLive x.1) ||
  d.coh.reqs.any (fun r => r.line / 2 ^ 22 == d.devnum * 2 ^ 20 + n && decide (r.msg.opc < 0x20) && r.why != .zero &&
    (isWrite r.msg.opc || !writesOnly))

/-- The accesses admitted before a SEAL or FREE have completed: the extent changes, and what was held is decided under
the new state (R60, R757). -/
def Dev.extDrained (d : Dev) : Dev :=
  match d.extCmd with
  | none => d
  | some k =>
    let n := k.first + k.done
    if (k.op ≠ 2 ∧ k.op ≠ 3) ∨ d.pwr.warm.isSome = true ∨ d.extInUse n (k.op == 2) = true then d
    else
      /- an extent lost during the wait stays LOST under SEAL (R58) -/
      let d := if k.op = 3 then d.freeExt n
        else if (d.extent n).st = .open_ then d.setExt n { d.extent n with st := .immutable } else d
      ({ d with extCmd := some k.next }.extNext (k.count + 1)).slotsGo

/-- The extent command in progress has extents of the run still in hand (R59). -/
def Dev.inHand (d : Dev) (first count : Nat) : Bool :=
  match d.extCmd with
  | some k => decide (k.first + k.done < first + count ∧ first < k.first + k.count)
  | none => false

/-- The extent's backing fails: it is LOST, unless FREE has it in hand, after which it holds no data to lose (R58, R59, 07 R291). -/
def Dev.failExt (d : Dev) (n : Nat) : Dev :=
  match d.extCmd with
  | some k => if k.op = 3 ∧ n = k.first + k.done then { d with extCmd := some { k with lost := true } }.dropFrames n else d.loseExt n
  | none => d.loseExt n

/-- A host commits an HDM decoder (R76). -/
def Dev.hdmCommit (d : Dev) (port dec base size : Nat) : Dev :=
  let i := port * 8 + dec
  if d.rb .XLT_HDM_MAP_VALID i ∧ size = d.rf .XLT_HDM_MAP_SIZE i * 2 ^ 28 then
    { d with hdm := kput d.hdm i base }.send (.cxl port .commitOk dec base false [])
  else { d with hdm := kdel d.hdm i }.send (.cxl port .notCommitted dec base false [])

end Sys2Proof.Machine
end

