-- ==== Sys2Proof/Machine/Links.lean ====
section
/-!
DEFINITION. The Mortar link layer: flits, acknowledgement and replay, credits, retraining, lanes and link loss (03 R90-R104).
-/

namespace Sys2Proof.Machine

/-! ### Link down, retrain and lanes -/

/-- The lender behind a port is gone: every extent that it lends and that holds data is LOST (17 R677). -/
def Dev.loseLender (d : Dev) (p : Nat) : Dev :=
  (d.ext.filter (fun e => extKind e.1 == .lent && e.2.port == p && (e.2.st == .open_ || e.2.st == .immutable))).foldl
    (fun d e => d.loseExt e.1) d

/-- Discards what the Hub and the link layer hold for a port, and counts the frames in DISCARD (R104): frames in its buffer, frames whose
cells are all still staged, messages not yet in flits. -/
def Dev.discardFor (d : Dev) (p : Nat) : Dev :=
  let mine := d.hub.frames.filter (fun f => f.out == p)
  let staged := ((d.hub.staged.filter (fun x => x.2.out == p)).map (fun x => (x.2.share.val, x.2.tc.val, x.2.frame))).eraseDups
  let only := staged.filter (fun x => !mine.any (fun f => f.share == x.1 && f.tc == x.2.1 && f.id == x.2.2))
  let n := mine.length + only.length + (d.tx.filter (fun x => x.1 == p)).length
  { d with hub.frames := d.hub.frames.filter (fun f => f.out != p), hub.staged := d.hub.staged.filter (fun x => x.2.out != p),
           tx := d.tx.filter (fun x => x.1 != p) }.bump .HUB_FP_ERR_DISCARD p n

/-- The link goes down (R101, R104): what is queued for the port is discarded and counted, and its shares are free for what waits at
CXL ports (R89); what its lender lends is LOST (17 R677).
RATE, LANES_OUT and LANE_MAP keep their values (DESIGN CHOICE, log 122). -/
def Dev.linkDown (d : Dev) (p : Nat) : Dev :=
  let was := d.rf .HUB_FP_ERR_DISCARD p
  let d := (d.discardFor p).loseLender p
  let d := d.setLink p { newLink false with retrains := (d.link_ p).retrains }
  let d := ((d.wb .HUB_FP_STS_LINK_UP p false).wb .HUB_FP_STS_RETRAINING p false).wf .HUB_FP_STS_WIDTH p 0
  let d := (d.logEvent { kind := 7, u := true, tag := 16, unit := p, detail := d.rf .HUB_FP_ERR_DISCARD p - was }).tallyPort p 4
  d.portsGo (d.coh.cxlWait.length + 1)

/-- The port retrains (R101): three retrains within 10 ms take the link down. -/
def Dev.retrain (d : Dev) (p : Nat) : Dev :=
  if !d.rb .HUB_FP_STS_LINK_UP p then d
  else
    let l := d.link_ p
    let ts := d.gt :: l.retrains.filter (fun t => decide (d.gt ≤ t + 10000000))
    let d := ((d.bump .HUB_FP_ERR_RETRAIN p).tallyPort p 3).setLink p { l with retrains := ts, replay := l.replay.map (fun f => { f with resent := 0 }) }
    let d := d.logEvent { kind := 6, u := false, unit := p, detail := d.rf .HUB_FP_STS_LANES_OUT p }
    if 3 ≤ ts.length then d.linkDown p else d.wb .HUB_FP_STS_RETRAINING p true

/-- A Haresh link has no registers of its own: 16 is HL0, 17 is HL1 (log 123). -/
def isHl (p : Nat) : Bool := decide (16 ≤ p)

/-- A Haresh link retrains: it resumes at once from the last ACK; three retrains within 10 ms take it down until a new Bond (R101,
14 R553; log 123). -/
def Dev.hlRetrain (d : Dev) (p : Nat) : Dev :=
  let ts := d.gt :: (d.link_ p).retrains.filter (fun t => decide (d.gt ≤ t + 10000000))
  if 3 ≤ ts.length then
    (d.setLink p { newLink false with retrains := ts, down := true }).logEvent { kind := 7, u := true, tag := 16, unit := p }
  else
    let d := d.setLink p { d.link_ p with retrains := ts, replay := (d.link_ p).replay.map (fun f => { f with resent := 0 }) }
    d.resend p (d.link_ p).replay

/-- A link protocol error (R98; on a Haresh link also 19 R717). -/
def Dev.linkError (d : Dev) (p : Nat) : Dev :=
  if isHl p then d.hlRetrain p else ((d.bump .HUB_FP_ERR_PROTO p).tallyPort p 5).retrain p

/-- The physical lane that carries a logical lane (R93, R124). -/
def Dev.laneOf (d : Dev) (p logical : Nat) : Nat :=
  match bits (d.rf .HUB_FP_STS_LANE_MAP p) (2 * logical) 2 with
  | 1 => 8
  | 2 => 9
  | _ => logical

/-- A lane has failed (R101-R103): a spare takes its place, or the width halves, or the link goes down; the port retrains. A failing
lane that no logical lane is bound to is only marked in LANES_OUT (DESIGN CHOICE, log 124). -/
def Dev.laneFail (d : Dev) (p lane : Nat) : Dev :=
  if !d.rb .HUB_FP_STS_LINK_UP p || bit (d.rf .HUB_FP_STS_LANES_OUT p) lane then d
  else
    let d := d.wf .HUB_FP_STS_LANES_OUT p (d.rf .HUB_FP_STS_LANES_OUT p ||| 2 ^ lane)
    match (List.range 8).find? (fun k => d.laneOf p k == lane) with
    | none => d
    | some k =>
      let usable (s : Nat) : Bool := !bit (d.rf .HUB_FP_STS_LANES_OUT p) s && !(List.range 8).any (fun j => d.laneOf p j == s)
      let spare := if d.isMortar p && d.rb .HUB_FP_CFG_SPARE_EN p then [8, 9].find? usable else none
      match spare with
      | some s =>
        let d := d.wf .HUB_FP_STS_LANE_MAP p (setBits (d.rf .HUB_FP_STS_LANE_MAP p) (2 * k) 2 (s - 7))
        let d := d.logEvent { kind := 6, u := false, unit := p, detail := d.rf .HUB_FP_STS_LANES_OUT p }
        d.retrain p
      | none =>
        let good := ((List.range 8).filter (fun j => !bit (d.rf .HUB_FP_STS_LANES_OUT p) (d.laneOf p j))).length
        if good < 4 then d.linkDown p else (d.wf .HUB_FP_STS_WIDTH p 1).retrain p

/-- A lane loses lock (R102). -/
def Dev.laneLock (d : Dev) (p lane : Nat) : Dev := d.laneFail p lane

/-- A lane's 1 ms window ends (R102). -/
def Dev.laneWindow (d : Dev) (p lane : Nat) : Dev :=
  let l := d.link_ p
  let n := sget 0 l.fec lane
  let d := d.setLink p { l with fec := sput 0 l.fec lane 0 }
  if d.rf .HUB_FP_LTHR_LIMIT p < n then d.laneFail p lane else d

/-- A retrain ends: replay goes on from the last ACK (R101). -/
def Dev.retrainDone (d : Dev) (p : Nat) : Dev :=
  if d.rb .HUB_FP_STS_RETRAINING p then
    let d := d.wb .HUB_FP_STS_RETRAINING p false
    let fs := (d.link_ p).replay.take 2048
    (d.bump .HUB_FP_ERR_REPLAY p fs.length).resend p fs
  else d

/-- Initial training ends (R101). The binding of lanes stands: a substituted lane comes back only by a port reset or cold reset
(R103). -/
def Dev.trained (d : Dev) (p : Nat) (ok width4 : Bool) (rate : Nat) : Dev :=
  if (d.link_ p).training then
    if ok then
      let l := newLink false
      let d := d.setLink p (if d.isMortar p then { l with granted := d.initialCredit p } else l)
      ((d.wb .HUB_FP_STS_LINK_UP p true).wf .HUB_FP_STS_WIDTH p (if width4 then 1 else 2)).wf .HUB_FP_STS_RATE p
        (if d.isMortar p then 3 else rate)
    else d.linkDown p
  else d

/-- Initial training has taken 5 ms (R101). -/
def Dev.trainTimeout (d : Dev) (p : Nat) : Dev := if (d.link_ p).training then d.linkDown p else d

/-- 1 µs has passed since an unacknowledged flit arrived (R96); while a NAK stands it is said again (log 125). -/
def Dev.ackTimer (d : Dev) (p : Nat) : Dev :=
  let l := d.link_ p
  if 0 < l.unacked ∨ l.nakked = true then d.sendAck p l.nakked else d

/-! ### Sending -/

/-- A new flit goes out and is kept until it is acknowledged; it returns credit that is owed (R90, R94, R95). -/
def Dev.sendFlit (d : Dev) (p kind : Nat) (slots : List Bytes) : Dev :=
  let (d, ret) := d.takeOwed p
  let l := d.link_ p
  let f : SentFlit := { seq := l.nextSeq, kind := kind, ret := ret, slots := slots }
  (d.setLink p { l with replay := l.replay ++ [f], unacked := 0, nextSeq := (l.nextSeq + 1) % 4096 }).send (.flit p (f.raw l.ack))

/-- A queued message becomes flits where its credit and the replay window allow (R94, R95, R99); messages of one class, share and
channel keep their order, and those of another channel do not wait for them (04 R140). A message goes only when all its flits fit the
replay window, and no flit carries parts of two messages (DESIGN CHOICE, log 126). One for a port whose link is not up is lost and
counted (R104). -/
def Dev.txOne (d : Dev) (x : Nat × Msg) (blocked : List (Nat × Nat × Nat)) : Dev × List (Nat × Nat × Nat) :=
  let p := x.1
  let m := x.2
  let l := d.link_ p
  let key := d.creditKey p m
  let lane := (p, key, m.vc.toNat)
  let keep (d : Dev) : Dev := { d with tx := d.tx ++ [x] }
  if !(d.isMortar p && d.rb .HUB_FP_STS_LINK_UP p) then (d.bump .HUB_FP_ERR_DISCARD p, blocked)
  else if d.rb .HUB_FP_STS_RETRAINING p || blocked.contains lane then (keep d, blocked)
  else
    let slots := msgSlots m
    let fl := chunks 7 (slots.length + 1) slots
    match takeCredit l.held key slots.length m with
    | none => (keep d, blocked ++ [lane])
    | some (held, _) =>
      if 2048 < l.replay.length + fl.length then (keep d, blocked ++ [lane])
      else (fl.foldl (fun d f => d.sendFlit p 1 f) (d.setLink p { l with held := held }), blocked)

/-- IDLE flits return what credit is still owed on a port (R94, R99). -/
def Dev.returnOwed (d : Dev) (p : Nat) : Nat → Dev
  | 0 => d
  | fuel + 1 =>
    if !(d.isMortar p && d.rb .HUB_FP_STS_LINK_UP p) || d.rb .HUB_FP_STS_RETRAINING p || (d.takeOwed p).2.2.2 == 0 then d
    else (d.sendAck p false).returnOwed p fuel

/-- The link layer sends what it can: messages, then the credit that none of their flits has returned. -/
def Dev.txGo (d : Dev) : Dev :=
  let d := (d.tx.foldl (fun (acc : Dev × List (Nat × Nat × Nat)) x => acc.1.txOne x acc.2) ({ d with tx := [] }, [])).1
  (d.link.map Prod.fst).foldl (fun d p => d.returnOwed p 256) d

/-! ### Receiving -/

/-- A flit that fails its CRC draws a NAK; one out of order draws one unless a NAK stands. Flits are then discarded until the
expected one arrives (R96). -/
def Dev.flitLost (d : Dev) (p : Nat) (bad : Bool := false) : Dev :=
  let l := d.link_ p
  if l.nakked && !bad then d else (d.setLink p { l with nakked := true }).sendAck p true

/-- The ACK and NAK of a flit (R95-R98): the link after it, or none for a protocol error. A flit that a NAK has resent four times makes
the port retrain (R97). -/
def Dev.takeAck (d : Dev) (p ack : Nat) (nak : Bool) : Option Dev :=
  let l := d.link_ p
  let behind := subMod 12 l.nextSeq ack
  if behind = 0 ∨ 2048 < behind then none
  else
    let n := match l.replay with
      | [] => 0
      | f :: _ => if behind ≤ l.replay.length then subMod 12 ack f.seq + 1 else 0
    let left := l.replay.drop n
    if nak && !left.isEmpty then
      let left := left.map (fun f => { f with resent := f.resent + 1 })
      let d := d.setLink p { l with replay := left }
      let d := (if isHl p then d else d.bump .HUB_FP_ERR_REPLAY p left.length).resend p left
      some (if left.any (fun f => decide (4 ≤ f.resent)) then (if isHl p then d.hlRetrain p else d.retrain p) else d)
    else some (d.setLink p { l with replay := left })

/-- The credit return of a flit (R90): none for a protocol error. A reserved SHARE is one only where COUNT says that credit is
returned (DESIGN CHOICE, log 149). -/
def Dev.takeReturn (d : Dev) (p share tc count : Nat) : Option Dev :=
  if count = 0 then some d
  else if share ≤ 17 ∨ (20 ≤ share ∧ share ≤ 23 ∧ tc = 2) then
    let l := d.link_ p
    some (d.setLink p { l with held := sput 0 l.held (tc + 8 * share) (sget 0 l.held (tc + 8 * share) + count) })
  else none

/-- Messages delivered by a flit are charged to credit granted (R98, R99): none where it was not. -/
def Dev.charge (d : Dev) (p : Nat) : List Msg → Option Dev
  | [] => some d
  | m :: ms =>
    let l := d.link_ p
    match takeCredit l.granted (d.creditKey p m) (dataSlots m + 1) m with
    | none => none
    | some (g, k) => Dev.charge { d.setLink p { l with granted := g } with delivered := d.delivered ++ [(p, m, k)] } p ms

/-- The bytes of a flit after FEC, with the corrected bytes counted on their lanes; none for a flit that is lost: its CRC fails, or a
codeword does not decode, whatever its CRC says (R91-R93; DESIGN CHOICE, log 127). -/
def Dev.flitBytes (d : Dev) (p : Nat) (raw : Bytes) : Dev × Option Bytes :=
  match flitFec raw with
  | none => (d, none)
  | some (f, ps) =>
    let l := d.link_ p
    let fec := if isHl p then l.fec else ps.foldl (fun m b => let k := d.laneOf p (b % 8); sput 0 m k (sget 0 m k + 1)) l.fec
    (d.setLink p { l with fec := fec }, if flitCrc f then some f else none)

/-- A flit is lost: counted in CRC, every 1,024 of them reported (R96, R125, 17 R652). -/
def Dev.flitBad (d : Dev) (p : Nat) : Dev :=
  if isHl p then d.flitLost p true
  else
    let l := d.link_ p
    let d := d.bump .HUB_FP_ERR_CRC p
    let d := if l.crcFails = 1023 then (d.setLink p { l with crcFails := 0 }).tallyPort p 6
      else d.setLink p { l with crcFails := l.crcFails + 1 }
    d.flitLost p true

/-- The link can carry flits. -/
def Dev.linkReady (d : Dev) (p : Nat) : Bool :=
  if isHl p then !(d.link_ p).down else (d.rb .HUB_FP_STS_LINK_UP p && !d.rb .HUB_FP_STS_RETRAINING p)

/-- A flit that is whole (R90, R94-R99): its ACK, NAK and credit return act, and `take` gets the kind and slots of the flit expected. -/
def Dev.flitIn (d : Dev) (p : Nat) (f : Bytes) (take : Dev → Nat → List Bytes → Dev) : Dev :=
  let w0 := field f 0 2
  let w1 := field f 2 2
  let w2 := field f 4 4
  let seq := w0 % 4096
  let kind := w0 / 4096
  if 2 < kind then d.linkError p
  else match d.takeAck p (w1 % 4096) (bit w1 12) with
  | none => d.linkError p
  | some d =>
    let l := d.link_ p
    if !d.linkReady p then d
    else if kind = 0 then
      if seq ≠ l.ack then d.flitLost p
      else match d.takeReturn p (w2 % 32) (w2 / 32 % 8) (w2 / 256 % 256) with
        | some d => d
        | none => d.linkError p
    else if seq ≠ l.expect then d.flitLost p
    else
      let d := d.setLink p { l with expect := (l.expect + 1) % 4096, nakked := false, unacked := l.unacked + 1 }
      match d.takeReturn p (w2 % 32) (w2 / 32 % 8) (w2 / 256 % 256) with
      | none => d.linkError p
      | some d =>
        let d := if 64 ≤ (d.link_ p).unacked then d.sendAck p false else d
        take d kind ((List.range 7).map (fun i => (f.drop (8 + 32 * i)).take 32))

/-- The slots of a MSG flit of a fabric port make messages, which are charged and delivered (R98, R99, R143). -/
def Dev.msgFlit (d : Dev) (p kind : Nat) (slots : List Bytes) : Dev :=
  if kind = 2 then d
  else match assemble slots (d.link_ p).slots [] with
    | none => d.linkError p
    | some (ms, part) =>
      match (d.setLink p { d.link_ p with slots := part }).charge p ms with
      | some d => d
      | none => d.linkError p

/-- A flit arrives on a port in MORTAR mode (R90-R99). -/
def Dev.flitReceive (d : Dev) (p : Nat) (raw : Bytes) : Dev :=
  if !(d.isMortar p && d.linkReady p) || raw.length != 256 then d
  else match d.flitBytes p raw with
    | (d, none) => d.flitBad p
    | (d, some f) => d.flitIn p f (fun d kind slots => d.msgFlit p kind slots)

end Sys2Proof.Machine
end

