-- ==== Sys2Proof/Machine/Hub.lean ====
section
/-!
DEFINITION. The Hub: staging, the two matchings of a cell time, the shares of the output buffer, egress and push-out
(03 R105-R122).
-/

namespace Sys2Proof.Machine

/-- Cells held in a droppable share. -/
def Dev.dropUsed (d : Dev) (s : Nat) : Nat :=
  ((d.hub.frames.filter (fun f => f.droppable && f.share == s)).map OutFrame.left).sum

/-- The share that a cell will be charged to has a free cell for it: of a lossless share the last RSP only for responses, so a request
goes while fewer than SIZE - RSP cells are held, responses counted (R113; DESIGN CHOICE, log 149); cells of TC6 and TC7 are charged to
the droppable share (R108, R112, R114). -/
def Dev.shareRoom (d : Dev) (c : Cell) : Bool :=
  if c.tc.val ≤ 5 then
    let i := c.share.val * 8 + c.tc.val
    let size := 4 * d.rf .HUB_LSHARE_SIZE i
    let cap := if c.rsp then size else size - d.rf .HUB_LSHARE_RSP i
    decide (d.shareUsed c.share.val c.tc.val < cap)
  else decide (d.dropUsed c.share.val < 4 * d.rf .HUB_DSHARE_SIZE c.share.val)

/-- A cell arrives at a Hub input: it takes one of the class's two staging slots, or stays with its sender while both are taken (R108,
R114). -/
def Dev.cellArrival (d : Dev) (input : Nat) (c : Cell) : Dev :=
  let n := (d.hub.staged.filter (fun x => x.1 == input && x.2.tc == c.tc)).length
  if n < 2 then { d with hub.staged := d.hub.staged ++ [(input, c)] } else d

/-- The class order in which an input offers cells to an output: TC0 to TC2, then TC3 to TC7 in rotation (R108), which begins at TC3
after a reset (DESIGN CHOICE, log 128). -/
def Dev.classOrder (d : Dev) (i j : Nat) : List Nat :=
  let last := sget 7 d.hub.lastClass (i * 64 + j)
  [0, 1, 2] ++ (List.range 5).map (fun k => 3 + (last - 3 + 1 + k) % 5)

/-- The cell that input `i` would send to output `j` now: of the first class that has one the oldest that is eligible (R108, R110,
R113). -/
def Dev.offer (d : Dev) (i j : Nat) : Option (Nat × Cell) :=
  (d.classOrder i j).findSome? (fun c =>
    d.hub.staged.find? (fun x => x.1 == i && x.2.out == j && x.2.tc.val == c && d.shareRoom x.2))

/-- The Hub port that a crossbar path serves: the spare path 39 stands in for the port that the spare map names (R106). -/
def Dev.pathPort (d : Dev) (k : Nat) : Nat :=
  match d.act.hubPort with
  | some p => if k = 39 then p else if k = p then 39 else k
  | none => k

/-- The state of one matching (R109). -/
structure Match where
  inFree : List Nat
  outFree : List Nat
  pairs : List (Nat × Nat)
  g : Map Nat
  a : Map Nat
deriving DecidableEq, Repr

/-- The first element at or after `p`, modulo 40, that satisfies `q`. -/
def firstFrom (p : Nat) (q : Nat → Bool) : Option Nat := ((List.range 40).map (fun n => (p + n) % 40)).find? q

/-- One iteration of the matching: outputs grant, inputs accept; the pointers move on the first iteration only (R109). After a reset the
pointers are 0 (DESIGN CHOICE, log 128). -/
def matchIter (req : Nat → Nat → Bool) (first : Bool) (m : Match) : Match :=
  let grants := m.outFree.filterMap (fun j =>
    (firstFrom (sget 0 m.g j) (fun i => m.inFree.contains i && req i j)).map (fun i => (j, i)))
  let granted (i j : Nat) : Bool := grants.contains (j, i)
  m.inFree.foldl (fun m i =>
    match firstFrom (sget 0 m.a i) (granted i) with
    | none => m
    | some j =>
      { inFree := m.inFree.erase i, outFree := m.outFree.erase j, pairs := m.pairs ++ [(i, j)],
        g := if first then sput 0 m.g j ((i + 1) % 40) else m.g,
        a := if first then sput 0 m.a i ((j + 1) % 40) else m.a }) m

/-- Rank of a droppable class, 0 the highest (R119). -/
def dropRank (tc : Nat) : Nat := tc - 3

/-- A cell crosses to its output's buffer (R109, R112). -/
def Dev.cross (d : Dev) (i j : Nat) : Dev :=
  match d.offer i j with
  | none => d
  | some x =>
    let c := x.2
    let frames := d.hub.frames
    let drop := decide (5 < c.tc.val)
    let same (f : OutFrame) : Bool := f.out == j && f.id == c.frame && f.share == c.share.val && f.tc == c.tc.val && f.droppable == drop
    let frames := if frames.any same then frames.map (fun f => if same f then { f with left := f.left + 1 } else f)
      else frames ++ [{ out := j, share := c.share.val, tc := c.tc.val, rsp := c.rsp, droppable := drop,
                        rank := if drop then dropRank c.tc.val else 0, id := c.frame, left := 1, started := false }]
    { d with hub.staged := d.hub.staged.erase x, hub.frames := frames,
             hub.lastClass := if 3 ≤ c.tc.val then sput 7 d.hub.lastClass (i * 64 + j) c.tc.val else d.hub.lastClass
    }.send (.cross i j)

/-- One matching of crossbar paths and the cells that it moves between their ports (R106, R109). -/
def Dev.oneMatch (d : Dev) : Dev :=
  let req (i j : Nat) : Bool := (d.offer (d.pathPort i) (d.pathPort j)).isSome
  let ins := List.range 40
  let m0 : Match := { inFree := ins, outFree := ins, pairs := [], g := d.hub.grant, a := d.hub.accept }
  let m := matchIter req false (matchIter req true m0)
  m.pairs.foldl (fun d p => d.cross (d.pathPort p.1) (d.pathPort p.2)) { d with hub.grant := m.g, hub.accept := m.a }

/-- One cell time of the scheduler: two matchings (R109). -/
def Dev.hubMatch (d : Dev) : Dev := d.oneMatch.oneMatch

/-! ### Egress (R118) -/

/-- Weight of a class of TC3 to TC7 (R129). -/
def Dev.classWeight (d : Dev) (c : Nat) : Nat :=
  match c with
  | 3 => d.rf .HUB_EGR_WT_TC3
  | 4 => d.rf .HUB_EGR_WT_TC4
  | 5 => d.rf .HUB_EGR_WT_TC5
  | 6 => d.rf .HUB_EGR_WT_TC6
  | _ => d.rf .HUB_EGR_WT_TC7

/-- Cells of a class wait at an output. -/
def Dev.waits (d : Dev) (j c : Nat) : Bool := d.hub.frames.any (fun f => f.out == j && f.tc == c && decide (0 < f.left))

/-- The class that an output serves next: strict for TC0 to TC2 but 15 of 16 cells at most while others wait, then deficit
round robin (R118). After a reset every deficit is 0 (DESIGN CHOICE, log 128). -/
def Dev.nextClass (d : Dev) (j : Nat) : Option (Nat × Dev) :=
  let low := [3, 4, 5, 6, 7].filter (d.waits j)
  let top := [0, 1, 2].find? (d.waits j)
  let s := sget 0 d.hub.strict j
  let drr (d : Dev) : Option (Nat × Dev) :=
    let key (c : Nat) : Nat := j * 8 + c
    let dz := [3, 4, 5, 6, 7].foldl (fun t c => if low.contains c then t else sput 0 t (key c) 0) d.hub.deficit
    let t := if low.any (fun c => decide (0 < sget 0 dz (key c))) then dz
      else low.foldl (fun t c => sput 0 t (key c) (d.classWeight c)) dz
    (low.find? (fun c => decide (0 < sget 0 t (key c)))).map (fun c =>
      (c, { d with hub.deficit := sput 0 t (key c) (sget 0 t (key c) - 1), hub.strict := sput 0 d.hub.strict j 0 }))
  match top with
  | some c =>
    if low.isEmpty then some (c, { d with hub.strict := sput 0 d.hub.strict j 0 })
    else if s < 15 then some (c, { d with hub.strict := sput 0 d.hub.strict j (s + 1) })
    else drr d
  | none => drr d

/-- The share served next within a class of an output: deficit round robin by WEIGHT; the device has weight 16 (R118, 06
R242, log 23). -/
def Dev.nextShare (d : Dev) (j c : Nat) : Option (Nat × Dev) :=
  let shares := (List.range 17).filter (fun s => d.hub.frames.any (fun f => f.out == j && f.tc == c && f.share == s && decide (0 < f.left)))
  let key (s : Nat) : Nat := (j * 8 + c) * 32 + s
  let weight (s : Nat) : Nat := if s = 16 then 16 else max 1 (d.rf .CHM_CFG_WEIGHT s)
  let t := if shares.any (fun s => decide (0 < sget 0 d.hub.chamberTurn (key s))) then d.hub.chamberTurn
    else shares.foldl (fun t s => sput 0 t (key s) (weight s)) d.hub.chamberTurn
  (shares.find? (fun s => decide (0 < sget 0 t (key s)))).map (fun s =>
    (s, { d with hub.chamberTurn := sput 0 t (key s) (sget 0 t (key s) - 1) }))

/-- Sends one cell of the oldest frame of a share and class. -/
def sendCell (j c s : Nat) : List OutFrame → List OutFrame × Option Nat
  | [] => ([], none)
  | f :: l =>
    if f.out = j ∧ f.tc = c ∧ f.share = s ∧ 0 < f.left then
      (if f.left = 1 then l else { f with left := f.left - 1, started := true } :: l, some f.id)
    else let (r, k) := sendCell j c s l; (f :: r, k)

/-- A fabric port takes no cell while it retrains: its traffic is held (R101). A cell that crosses toward a port whose link is already
down stays in its share until the link comes up or goes down again (R104; DESIGN CHOICE, log 149). -/
def Dev.outHeld (d : Dev) (j : Nat) : Bool :=
  decide (j < 16) && (!d.rb .HUB_FP_STS_LINK_UP j || d.rb .HUB_FP_STS_RETRAINING j)

/-- One output sends one cell, when one waits (R118). -/
def Dev.egress (d : Dev) (j : Nat) : Dev :=
  if d.outHeld j then d else
  match d.nextClass j with
  | none => d
  | some (c, d) =>
    match d.nextShare j c with
    | none => d
    | some (s, d) =>
      match sendCell j c s d.hub.frames with
      | (fs, some id) => { d with hub.frames := fs, err.tlm.cells := d.err.tlm.cells + 1 }.send (.cell j id)
      | _ => d

/-- Every output sends a cell (R118); what waited at the CXL ports for a share with a free cell goes on (R89). -/
def Dev.hubEgress (d : Dev) : Dev :=
  let d := (List.range 40).foldl (fun d j => d.egress j) d
  d.portsGo (d.coh.cxlWait.length + 1)

/-! ### Push-out (R119-R122) -/

/-- The newest frame of the lowest rank below `r` in a share that has not begun to leave. -/
def victimFrame (s r : Nat) (fs : List OutFrame) : Option OutFrame :=
  fs.foldl (fun b f =>
    if f.droppable && f.share == s && decide (r < f.rank) && !f.started then
      match b with
      | none => some f
      | some x => if x.rank ≤ f.rank then some f else some x
    else b) none

/-- Evicts frames until `n` cells are free in share `s` (R120, R122). -/
def Dev.pushOut (d : Dev) (s r n size : Nat) : Nat → Dev
  | 0 => d
  | fuel + 1 =>
    if n + d.dropUsed s ≤ size then d
    else match victimFrame s r d.hub.frames with
      | none => d
      | some f =>
        Dev.pushOut ({ d with hub.frames := d.hub.frames.erase f, net.rx := d.net.rx.filter (fun x => x.hub != some f.id) }.bump
          .HUB_EVICT_CNT_FRAMES (s * 8 + (f.tc - 3))) s r n size fuel

/-- A frame of `cells` cells for a droppable share, by push-out where it needs it; none when it is dropped (R119-R122). -/
def Dev.dropIn (d : Dev) (out s tc cells id : Nat) : Option Dev :=
  let size := 4 * d.rf .HUB_DSHARE_SIZE s
  let r := dropRank tc
  let lower := ((d.hub.frames.filter (fun x => x.droppable && x.share == s && decide (r < x.rank) && !x.started)).map OutFrame.left).sum
  if size - d.dropUsed s + lower < cells then none
  else
    let d := d.pushOut s r cells size (d.hub.frames.length + 1)
    some { d with hub.frames := d.hub.frames ++ [{ out := out, share := s, tc := tc, rsp := false, droppable := true,
                                                   rank := r, id := id, left := cells, started := false }] }

/-- A dropped frame is counted under its class (R120, R122). -/
def Dev.dropped (d : Dev) (s tc : Nat) : Dev := d.bump .HUB_DROP_CNT_FRAMES (s * 8 + (tc - 3))

/-- A frame arrives for a droppable share (R119-R122). -/
def Dev.frameArrival (d : Dev) (f : HubFrame) : Dev :=
  if f.tc.val < 3 ∨ (f.tc.val ≤ 5 ∧ f.bestEffort = false) then d
  else (d.dropIn f.dest.port f.share.val f.tc.val f.cells f.id).getD (d.dropped f.share.val f.tc.val)

end Sys2Proof.Machine
end

