-- ==== Sys2Proof/Machine/Descriptors.lean ====
section
/-!
DEFINITION. Work rings: enabling, doorbells, admission and fetch of descriptors, NOP and ATOMIC, and signals by age
(06 R223-R240, R256-R260).
-/

namespace Sys2Proof.Machine

/-- A write of CHM_RING_CFG that sets EN from 0 to 1 (R257). -/
def Dev.ringEnable (d : Dev) (c r size : Nat) : Dev :=
  let i := ringIx c r
  if d.rb .CHM_RING_CFG_EN i then d
  else if d.rf .CHM_RING_STS_STATE i = 2 then d.bump .CHM_RING_STS_DB_ERR i
  else
    let d := d.setRing i { tail := 0, admitted := 0, written := 0, unsig := 0, oldest := 0 }
    let d := (d.wf .CHM_RING_STS_HEAD i 0).wf .CHM_RING_CHD_CHEAD i 0
    ((d.wf .CHM_RING_CFG_SIZE_LOG2 i (clamp 6 16 size)).wb .CHM_RING_CFG_EN i true).wf .CHM_RING_STS_STATE i 1

/-- A write of CHM_RING_CFG that clears EN (R257). -/
def Dev.ringDisable (d : Dev) (c r : Nat) : Dev :=
  let i := ringIx c r
  if d.rb .CHM_RING_CFG_EN i then
    let d := d.wb .CHM_RING_CFG_EN i false
    d.wf .CHM_RING_STS_STATE i (if d.rf .CHM_RING_STS_INFLIGHT i = 0 then 0 else 2)
  else d

/-- Places of the pool of 16,384 operations that are not held for another Chamber's MIN (R237). -/
def Dev.opPlace (d : Dev) (c : Nat) : Bool :=
  let held := ((List.range 16).map (fun i => if i = c then 0 else d.rf .CHM_OPS_MIN i - (d.opsOf i).length)).sum
  decide (d.ops.length + held < 16384)

/-- A descriptor of the ring is being fetched. -/
def Dev.fetching (d : Dev) (c r : Nat) : Bool := d.ops.any (fun e => e.2.chamber == c && e.2.ring == r && e.2.unfetched)

/-- The state of a Chamber beside its registers. Before its first admission the rotation of its rings stands at ring 63, so that ring 0
comes first (DESIGN CHOICE, log 128). -/
def Dev.chmSt (d : Dev) (c : Nat) : ChmSt := sget { resetting := false, aborts := 0, chb := false, last := 63 } d.chm c
def Dev.setChmSt (d : Dev) (c : Nat) (s : ChmSt) : Dev := { d with chm := kput d.chm c s }

/-- A ring has a descriptor that the front end may take: it runs, no descriptor of it is being fetched, TAIL is ahead of HEAD and a
completion slot is free (R237). -/
def Dev.ringReady (d : Dev) (c r : Nat) : Bool :=
  let i := ringIx c r
  decide (d.rf .CHM_RING_STS_STATE i = 1) && !d.fetching c r && decide (1 ≤ subMod 32 (d.ring i).tail (d.rf .CHM_RING_STS_HEAD i)) &&
    decide (subMod 32 (u32 (d.ring i).admitted) (d.rf .CHM_RING_CHD_CHEAD i) < 2 ^ d.rf .CHM_RING_CFG_SIZE_LOG2 i)

/-- The ring of a Chamber whose turn it is: the first ready one in rotation after the one served last (R238). -/
def Dev.turnOf (d : Dev) (c : Nat) : Option Nat :=
  ((List.range 64).map (fun k => ((d.chmSt c).last + 1 + k) % 64)).find? (fun r => d.ringReady c r)

/-- The front end fetches the descriptor at HEAD of the ring whose turn it is (R238); its place among the operations and its completion
slot are held for it (R237). How many slots it takes is known once it is read, so TAIL must cover one slot here and all of them when
the fetch is done: it is admitted, and HEAD and INFLIGHT count it, only then (R232, R259). -/
def Dev.descriptorAdmit (d : Dev) (c r : Nat) : Dev :=
  let i := ringIx c r
  let head := d.rf .CHM_RING_STS_HEAD i
  if d.pwr.warm = none ∧ d.chmState c = 1 ∧ d.turnOf c = some r ∧ (d.opsOf c).length < d.rf .CHM_OPS_MAX c ∧ d.opPlace c = true ∧
      (d.opsOf c).all (fun e => !e.2.isTables) = true then
    let id := d.nextOp
    let o : Op :=
      { chamber := c, ring := r, idx := head, nslots := 1, opcode := 0, tag := 0, sig := false, fence := false, nfz := false,
        tc := 0, body := [], phase := .fetch, admitted := d.gt, part := 0, lines := 0, nfzLines := 0, poison := false,
        fallback := false, unstaged := false, applied := false, ans := [], seen := [], reply := none,
        portal := (d.net.reqs.find? (fun e => e.2.chamber == c && e.2.stage == 1 && e.2.idx == head &&
          d.rf .NET_PTL_CFG_RING c == r)).map Prod.fst,
        acc := 0, acc2 := 0, acc3 := 0 }
    { d.setChmSt c { d.chmSt c with last := r } with ops := kput d.ops id o, nextOp := id + 1 }
  else d

/-- Opcodes assigned to descriptors (R225 and the chapters it names). -/
def descAssigned (op : Nat) : Bool :=
  op ≤ 1 || decide (8 ≤ op ∧ op ≤ 0x0B) || op == 0x10 || decide (0x18 ≤ op ∧ op ≤ 0x1A) || decide (0x20 ≤ op ∧ op ≤ 0x25) ||
    decide (0x30 ≤ op ∧ op ≤ 0x37) || decide (0x40 ≤ op ∧ op ≤ 0x43) || op == 0x48 || op == 0x58 || op == 0x59

/-- What a descriptor fetch found. -/
inductive Fetched where
  | poisoned
  | short
  | tooLong (header : Bytes)
  | all (bytes : Bytes)
deriving DecidableEq, Repr

/-- The fetch of a descriptor: its first slot, then its continuation slots (R223, R224, R760). -/
def eFetch (w : Who) (base k idx avail : Nat) : Eng Fetched := do
  let (h, p) ← eRead w (base + idx % 2 ^ k * 64) 64
  if p then return .poisoned
  let ext := field h 1 1 % 4
  if avail < 1 + ext then return .short
  if 2 ^ k < idx % 2 ^ k + 1 + ext then return .tooLong h
  if ext = 0 then return .all h
  let (b, p) ← eRead w (base + (idx % 2 ^ k + 1) * 64) (64 * ext)
  if p then return .poisoned
  return .all (h ++ b)

/-- The operation with its descriptor's header fields (R223). -/
def Op.withBytes (o : Op) (b : Bytes) : Op :=
  let f := field b 1 1
  { o with opcode := field b 0 1, tag := field b 8 8, sig := bit f 2, fence := bit f 3, nfz := bit f 4,
           tc := field b 2 1 % 8, body := b, nslots := 1 + f % 4 }

/-- The header breaks R224. -/
def headerBad (b : Bytes) : Bool :=
  field b 1 1 / 32 != 0 || field b 2 1 / 8 != 0 || field b 3 5 != 0 || !descAssigned (field b 0 1) ||
    !(decide (3 ≤ field b 2 1 ∧ field b 2 1 ≤ 5))

/-- The ring admits the descriptor of a fetch that has ended: it takes `n` slots (R237, R259). The clock counts admissions (R238). -/
def Dev.ringTakes (d : Dev) (i n : Nat) : Dev :=
  let s := d.ring i
  let d := d.tick
  ((d.setRing i { s with admitted := s.admitted + 1 }).inc .CHM_RING_STS_HEAD i n).inc .CHM_RING_STS_INFLIGHT i

/-- A fetch that has faulted goes on: its ring is RUNNING again (R232). -/
def Dev.ringRuns (d : Dev) (i : Nat) : Dev := if d.rf .CHM_RING_STS_STATE i = 3 then d.wf .CHM_RING_STS_STATE i 1 else d

/-- The front end may still admit the descriptor that a fetch reads: intake goes on, and HEAD stands where it stood (R237, R243). -/
def Dev.fetchStands (d : Dev) (o : Op) : Bool :=
  let i := ringIx o.chamber o.ring
  (d.rf .CHM_RING_STS_STATE i == 1 || d.rf .CHM_RING_STS_STATE i == 3) && d.chmState o.chamber == 1 &&
    d.rf .CHM_RING_STS_HEAD i == o.idx

/-- A descriptor fetch completes (R224, R232, R237, R760). While a TABLES of its Chamber stands, none is admitted (10 R410). -/
def Dev.fetchEnd (d : Dev) (id : Nat) : Dev :=
  match kget d.ops id with
  | none => d
  | some o =>
    let c := o.chamber
    let i := ringIx c o.ring
    let go : Bool := match o.phase with
      | .fetch => true
      | .blocked b => d.cleared c o.ans b
      | _ => false
    if !o.unfetched || !go || (d.opsOf c).any (fun e => e.2.isTables) then d
    else if !d.fetchStands o then d.dropFetch id o
    else
      let w : Who := { chamber := c, rq := 98, mt := none, nfz := false, why := .op id }
      let k := d.rf .CHM_RING_CFG_SIZE_LOG2 i
      let (res, es) := runEng (.op id) (eFetch w (d.rf .CHM_RING_BASE_BASE i * 4096) k o.idx (subMod 32 (d.ring i).tail o.idx)) d o.ans [] o.back
      /- R760 -/
      let lost (d : Dev) (st : Nat) (poison : Bool) : Dev :=
        let d := (d.ringRuns i).ringTakes i 1
        (d.setOp id { o with poison := poison, ans := [], phase := .ready, order := d.coh.clock }).endOp id st 0 o.idx
      match res with
      | .error (.block b start) =>
        let d := start (d.setOp id { o with phase := .blocked b })
        match b with
        | .fault _ | .stalled _ => if d.rf .CHM_RING_STS_STATE i = 1 then d.wf .CHM_RING_STS_STATE i 3 else d
        | _ => d.ringRuns i
      | .error (.fail st) => lost es.d st (st == 0x30)
      | .ok .poisoned => lost es.d 0x30 true
      | .ok .short => (es.d.ringRuns i).dropFetch id o
      | .ok (.tooLong h) =>
        let o := { o.withBytes h with ans := [], phase := .ready, admitted := d.gt }
        let d := (es.d.ringRuns i).ringTakes i o.nslots
        (d.setOp id { o with order := d.coh.clock }).endOp id 0x7F 0 0
      | .ok (.all b) =>
        let o := { o.withBytes b with phase := .ready, ans := [], admitted := d.gt }
        let d := (es.d.ringRuns i).ringTakes i o.nslots
        let d := d.setOp id { o with order := d.coh.clock }
        if headerBad b then d.endOp id 0x7F 0 0 else d

/-- The oldest unsignalled record of a ring has reached CHM_RING_SIG.TIME (R239). -/
def Dev.signalAge (d : Dev) (c r : Nat) : Dev :=
  if 0 < (d.ring (ringIx c r)).unsig ∧ d.rf .CHM_RING_SIG_TIME (ringIx c r) ≠ 0 then d.signalRing c r else d

/-- NOP (R226): OK, or MALFORMED with a non-zero byte in its body. -/
def Dev.nop (d : Dev) (id : Nat) : Dev :=
  d.runWhole id 0 (fun o => do
    if o.f 16 48 ≠ 0 then eFail 0x7F
    return {})

/-- ATOMIC (R202, R205, R227). -/
def Dev.atomicDesc (d : Dev) (id : Nat) : Dev :=
  d.runWhole id 1 (fun o => do
    let a := o.f 24 1
    let s := o.f 25 1
    let n := (atomicBytes (bits a 4 3)).getD 0
    let addr := o.f 16 8
    if bit a 7 ∨ s / 16 ≠ 0 ∨ o.f 26 6 ≠ 0 ∨ s % 4 < 2 ∨ !atomicOk (a % 16) (bits a 4 3) ∨ n = 0 ∨ addr % n ≠ 0 ∨
        2 ^ 52 ≤ addr then eFail 0x7F
    let r ← eAtomic (opWho id o) addr (a % 16) (bits a 4 3) n (s % 4) (s / 4 % 4) (o.f 32 n) (o.f 48 n)
    if r.unmapped then return { result := 0, applied := false }
    if r.poisoned then eFail 0x30
    return { count := r.old / 2 ^ 64, result := r.old % 2 ^ 64, applied := true })

end Sys2Proof.Machine
end

