-- ==== Sys2Proof/Machine/Tiers.lean ====
section
/-!
DEFINITION. COPY, PLACE, SCHEDULE, the ends of staging and promotion, and SETTLE (07 R264-R287).
-/

namespace Sys2Proof.Machine

/-! ### COPY (R274) -/

/-- One 64 KiB piece of a COPY, by its place in the destination (R274, R280). -/
def eCopyPiece (w : Who) (src dst bytes part : Nat) : Eng Unit := do
  let (a, k) := unitPart 65536 (dst / 65536 + part) dst bytes
  let sa := a - dst + src
  let ls ← eReadLines w sa k
  let bs := (((ls.map (fun l => l.2.1)).flatten).drop (sa % 64)).take k
  let mark (l : Nat) : Bool := ls.any (fun x => x.2.2 && decide (x.1 + dst < (l + 1) * 64 + src ∧ l * 64 + src < x.1 + 64 + dst))
  eWriteMarked w a bs mark

/-- The pieces of a COPY from the one it has reached. -/
def Dev.copyLoop (d : Dev) (id src dst bytes : Nat) (o : Op) : Nat → Dev
  | 0 => d.finishOp id o { count := o.lines }
  | fuel + 1 =>
    d.turn id o (eCopyPiece (opWho id o) src dst bytes o.part)
      (fun _ o d => Dev.copyLoop d id src dst bytes { o with part := o.part + 1 } fuel)

/-- COPY (R274). -/
def Dev.copy (d : Dev) (id : Nat) : Dev :=
  d.runOp id 8 (fun o d =>
    let src := o.f 16 8
    let dst := o.f 24 8
    let n := o.f 32 8
    if o.f 40 24 ≠ 0 ∨ n = 0 ∨ 2 ^ 40 < n ∨ 2 ^ 52 < src + n ∨ 2 ^ 52 < dst + n ∨ (src < dst + n ∧ dst < src + n) then
      d.endOp id 0x7F 0 0
    else d.copyLoop id src dst n o ((units 65536 dst n).length - o.part))

/-! ### PLACE (R275) -/

/-- PINNED frames of a Chamber, and frames that will be (R267). -/
def Dev.pinned (d : Dev) (c : Nat) : Nat :=
  (d.tier.promo.filter (fun e => e.2.chamber == c && (e.2.st == .pinned || (e.2.st == .filling && e.2.pin)))).length

/-- One more frame of the Chamber may be PINNED (R267). -/
def Dev.pinRoom (d : Dev) (c : Nat) : Bool :=
  decide ((d.pinned c + 1) * 100 ≤ d.rf .TIE_POOL_CFG_PIN_MAX * d.poolMax .promo c)

/-- Changes the state of the frame of a page in a pool. -/
def Dev.setFrame (d : Dev) (p : Pool) (f : Nat) (fr : Frame) : Dev := d.setPool p (kput (d.pool p) f fr)

/-- An action of PLACE on one page (R275): pages changed and pins refused. `want` are the blocks that move (R273); `note` tells
the operation that this page counts and the next is due, when the work goes on only after a copy. An action that meets a FILLING page, a
RELEASE or UNPIN too, waits for the copy and then acts (DESIGN CHOICE, log 139). -/
def ePlace (w : Who) (action cva want : Nat) (note : Nat → Dev → Dev) : Eng (Nat × Nat) := do
  match (← eXlate { w with nfz := true } cva false) with
  | none => return (0, 0)
  | some x =>
    let d ← eGet
    match d.localLine x.pa with
    | none => return (0, 0)
    | some (l, via) =>
      let kind := extKind (lineExt l)
      if kind ≠ .t1 ∧ kind ≠ .t2 then return (0, 0)
      if !(← eStage4 w x cva l false via) then eFail 0x30
      let pg := l / 1024
      let c := w.chamber
      let fill (p : Pool) (pin : Bool) (r : Nat) : Eng (Nat × Nat) := do
        match d.startFill p c pg want pin with
        | some _ => eBlock (.page pg) (fun d => match d.startFill p c pg want pin with | some d => note r d | none => d)
        | none =>
          eMod (fun d => d.bump .TIE_CNT_SHORT c)
          return (0, r)
      let promo := frameOf d.tier.promo pg
      let stage := frameOf d.tier.stage pg
      if d.pageFilling pg then eBlock (.page pg) id
      let covers (fr : Frame) : Bool := fr.valid &&& want == want
      match action with
      | 0 =>
        if kind = .t1 then return (0, 0)
        match promo, stage with
        | some (_, fr), _ => if covers fr then return (0, 0) else fill .promo false 0
        | none, some (_, fr) => if covers fr then return (0, 0) else fill .stage false 0
        | none, none => fill .stage false 0
      | 1 =>
        match promo with
        | some (_, fr) => if covers fr then return (0, 0) else fill .promo false 0
        | none => fill .promo false 0
      | 2 =>
        let room := d.pinRoom c
        match promo with
        | some (f, fr) =>
          if fr.st = .pinned then
            if covers fr then return (0, 0) else fill .promo true 0
          else if fr.st ≠ .clean then return (0, 0)
          else if !room then return (0, 1)
          else if covers fr then
            eMod (fun d => d.setFrame .promo f { fr with st := .pinned })
            return (1, 0)
          else fill .promo true 0
        | none => if room then fill .promo true 0 else fill .promo false 1
      | 3 =>
        match promo with
        | some (f, fr) =>
          if fr.st = .pinned then
            eMod (fun d => d.setFrame .promo f { fr with st := .clean })
            return (1, 0)
          else return (0, 0)
        | none => return (0, 0)
      | _ =>
        let drop (fr : Frame) : Bool := fr.st == .clean || fr.st == .pinned
        let hit := (match promo with | some (_, fr) => drop fr | none => false) || (match stage with | some (_, fr) => drop fr | none => false)
        if !hit then return (0, 0)
        match (List.range 1024).find? (fun i => d.lineServing (pg * 1024 + i)) with
        | some i => eBlock (.line (pg * 1024 + i)) id
        | none =>
          eMod (fun d => { d with tier.promo := d.tier.promo.filter (fun e => !(e.2.page == pg && drop e.2)),
                                  tier.stage := d.tier.stage.filter (fun e => !(e.2.page == pg && drop e.2)) })
          return (1, 0)

/-- The pages of a PLACE from the one it has reached. -/
def Dev.placeLoop (d : Dev) (id action cva : Nat) (o : Op) : Nat → Dev
  | 0 => d.finishOp id o { count := o.acc, result := o.acc2 }
  | fuel + 1 =>
    let note (r : Nat) (d : Dev) : Dev :=
      { d with ops := kmod d.ops id (fun o => { o with part := o.part + 1, acc := o.acc + 1, acc2 := o.acc2 + r }) }
    d.turn id o (ePlace (opWho id o) action (cva + o.part * 65536) 0xFFFF note)
      (fun r o d => Dev.placeLoop d id action cva { o with part := o.part + 1, acc := o.acc + r.1, acc2 := o.acc2 + r.2 } fuel)

/-- PLACE with an ACTION; an ACTION that R275 leaves unused is MALFORMED whichever row runs it. -/
def Dev.place (d : Dev) (id action : Nat) : Dev :=
  d.runOp id 9 (fun o d =>
    let cva := o.f 16 8
    let n := o.f 24 4
    let a := o.f 28 1
    if 5 ≤ a % 8 ∨ a / 8 ≠ 0 ∨ o.f 29 35 ≠ 0 ∨ n = 0 ∨ 2 ^ 20 < n ∨ cva % 65536 ≠ 0 ∨ 2 ^ 52 < cva + n * 65536 then d.endOp id 0x7F 0 0
    else if a ≠ action then d
    else d.placeLoop id action cva o (n - o.part))

/-! ### Ends of copies into frames (R265, R269, R270, R272) -/

/-- Slots that wait for a page go on in arrival order (R269, R270). -/
def Dev.pageDone (d : Dev) (pg : Nat) : Dev :=
  let ws := (d.coh.slots.filter (fun e => e.2.phase == .page pg)).mergeSort (fun a b => decide (a.2.seq ≤ b.2.seq))
  ((ws.foldl (fun d e => d.slotPage e.1) d).sweepsGo).slotsGo

/-- A copy into a frame ends, once its cartridge has answered (R265, R269, R272). -/
def Dev.frameFillDone (d : Dev) (p : Pool) (f bad : Nat) : Dev :=
  match kget (d.pool p) f with
  | some fr => if fr.st = .filling ∧ fr.cmd = none then (d.fillDone p f bad).pageDone fr.page else d
  | none => d

/-! ### SETTLE (R281-R285) -/

/-- A slot serves a T2 position and takes new settle destinations: not in transfer, not at its wear limit (R282, R290, R292). -/
def Dev.posOpen (d : Dev) (pos : Nat) : Option Nat :=
  (d.posSlot pos).bind (fun k => if d.rf .TIE_CART_STS_STATE k = 3 ∧ d.rb .TIE_CART_STS_LIMIT k = false then some k else none)

/-- The extent can take a settle. -/
def Dev.destOk (d : Dev) (n tier : Nat) : Bool :=
  (extKind n).code == tier && d.backed n && !d.inPool n && (d.extent n).st == .free &&
    (tier != 3 || (d.posOpen (extPos n)).isSome)

/-- The destination that the device chooses: the lowest FREE extent of the tier; in T2, of the allowed position least worn
for its rated life (R282). -/
def Dev.chooseDest (d : Dev) (tier pos : Nat) : Option Nat :=
  if tier = 2 then
    ((List.range (d.rf .XLT_T1_CFG_T1_EXTENTS)).map (fun i => 0x4000 + i)).find? (fun n => d.destOk n 2)
  else
    let worn (p : Nat) : Nat × Nat := match d.posOpen p with
      | some k => (d.rf .TIE_CART_WEAR_BYTES k, max 1 (d.rf .TIE_CART_LIFE_BYTES k))
      | none => (0, 1)
    let ps := ((List.range 8).filter (fun p => (pos == 15 || p == pos) && (d.posOpen p).isSome)).mergeSort
      (fun a b => decide ((worn a).1 * (worn b).2 ≤ (worn b).1 * (worn a).2))
    ps.findSome? (fun p => ((List.range 0x1C000).map (fun i => 0x20000 + p * 0x1C000 + i)).find? (fun n => d.destOk n 3))

/-- The source extent that SRC maps: all of it, in order (R281). -/
def eSource (w : Who) (cva : Nat) : Eng Nat := do
  let pas ← (List.range 4096).mapM (fun i => do
    let x ← eXlate { w with nfz := false } (cva + i * 65536) false
    return (x.map Xl.pa).getD 0)
  let pa := pas.headD 0
  let d ← eGet
  match d.localLine pa with
  | some (l, false) =>
    if pa % 2 ^ 28 = 0 ∧ pas = (List.range 4096).map (fun i => pa + i * 65536) then return lineExt l else eFail 0x7F
  | _ => eFail 0x7F

/-- A settle may read the extent (R282). -/
def Dev.sourceOk (d : Dev) (c n : Nat) : Bool :=
  (match extKind n with | .t0 | .t1 | .t2 | .lent => true | _ => false) && (d.extent n).st == .immutable && (d.extent n).chamber == c

/-- SETTLE is checked and waits for a journal slot (R281-R283). -/
def Dev.settle (d : Dev) (id : Nat) : Dev :=
  d.runOp id 0x0A (fun o d =>
    let src := o.f 16 8
    let a := o.f 24 1
    let dest := o.f 28 4
    let tier := a % 8
    if (tier ≠ 2 ∧ tier ≠ 3) ∨ bit a 3 ∨ o.f 25 3 ≠ 0 ∨ 2 ^ 20 ≤ dest ∨ o.f 32 32 ≠ 0 ∨ src % 2 ^ 28 ≠ 0 ∨ 2 ^ 52 ≤ src ∨
        (8 ≤ a / 16 ∧ a / 16 < 15) then d.endOp id 0x7F 0 0
    else d.turn id o (eSource (opWho id o) src) (fun n o d =>
      if d.extHeld n then d.setOp id { o with phase := .blocked (.held n) } else
      let ok : Bool := d.sourceOk o.chamber n && (if dest = 0 then (d.chooseDest tier (a / 16)).isSome else d.destOk dest tier)
      if ok then
        { d.setOp id { o with phase := .waiting, acc := n, acc2 := dest } with tier.waiting := d.tier.waiting ++ [id] }
      else (d.setOp id o).endOp id 0x7F 0 0))

/-- An admitted settle takes a journal slot: its open record is journaled and its destination enters SETTLING (R283). -/
def Dev.settleStart (d : Dev) (id : Nat) : Dev :=
  match kget d.ops id with
  | none => d
  | some o =>
    if !d.tier.waiting.contains id || decide (64 ≤ d.tier.settles.length) || !d.jRoom || d.extHeld o.acc then d
    else
      let a := o.f 24 1
      let dest := if o.acc2 = 0 then d.chooseDest (a % 8) (a / 16) else if d.destOk o.acc2 (a % 8) then some o.acc2 else none
      let d := { d with tier.waiting := d.tier.waiting.erase id }
      match dest with
      | none => d.endOp id 0x7F 0 0
      | some n =>
        if !d.sourceOk o.chamber o.acc then d.endOp id 0x7F 0 0
        else
          let jid := 2 ^ 40 + d.led.jseq
          let d := d.setExt n { d.extent n with st := .settling, chamber := o.chamber }
          let d := { d with extKey := sput 0 d.extKey n (sget 0 d.chmKey o.chamber),
                            tier.settles := kput d.tier.settles (freshKey d.tier.settles 0)
                              { jid := jid, op := some id, chamber := o.chamber, src := o.acc, dst := n, done := 0, poison := false,
                                transfer := false, recovered := false, closing := false, got := 0 } }
          d.journal 0x10 jid (leBytes 4 o.chamber ++ leBytes 4 o.acc ++ leBytes 4 n)

/-- Bytes written to a cartridge, with the thresholds of its rated life (R290). -/
def Dev.wear (d : Dev) (k n : Nat) : Dev :=
  let d := d.inc .TIE_CART_WEAR_BYTES k n
  let life := d.rf .TIE_CART_LIFE_BYTES k
  let at_ (pct : Nat) : Bool := life != 0 && decide (pct * life ≤ 100 * d.rf .TIE_CART_WEAR_BYTES k)
  let note (d : Dev) (detail : Nat) : Dev := d.logEvent { kind := 0x15, u := false, unit := k, detail := detail }
  let d := if at_ (d.rf .TIE_WEAR_CFG_WARN) && !d.rb .TIE_CART_STS_WARN k then note (d.wb .TIE_CART_STS_WARN k true) 0 else d
  if at_ (d.rf .TIE_WEAR_CFG_LIMIT) && !d.rb .TIE_CART_STS_LIMIT k then note (d.wb .TIE_CART_STS_LIMIT k true) 1 else d

/-- Poisoned stored lines of [first, first + n). -/
def Dev.poisonedIn (d : Dev) (first n : Nat) : List Nat :=
  match extKind (lineExt first) with
  | .t2 => if sideExt d.err.t2side (lineExt first) then (List.range n).map (fun i => first + i)
           else d.err.t2side.filterMap (fun e => match e with | .line l => if first ≤ l ∧ l < first + n then some l else none | .ext _ => none)
  | .lent => if sideExt d.err.lentSide (lineExt first) then (List.range n).map (fun i => first + i)
           else d.err.lentSide.filterMap (fun e => match e with | .line l => if first ≤ l ∧ l < first + n then some l else none | .ext _ => none)
  | _ => (d.err.poison.filter (fun e => decide (first ≤ e.1 ∧ e.1 < first + n))).map Prod.fst

/-- A chunk of 2^20 lines copied from one extent of the device to another through the residence table, with its poison marks (R280,
R283); a LENT source's lines have been written as its lender answered them. The flag says whether poison was carried. -/
def Dev.copyChunk (d : Dev) (src dst k : Nat) : Dev × Bool :=
  let s := src * 2 ^ 22 + k * 2 ^ 20
  let t := dst * 2 ^ 22 + k * 2 ^ 20
  let n := 2 ^ 20
  if extKind src = .lent then (d, !(d.poisonedIn t n).isEmpty) else
  let marks := (d.poisonedIn s n).map (fun l => l - s)
  let d1 :=
    if d.keyMatches s s then d.copyMem (s * 64) (t * 64) (n * 64)
    else (List.range n).foldl (fun (e : Dev) i => e.wrMem ((t + i) * 64) (d.rdLine (s + i)).1) d
  let old := d1.poisonedIn t n
  let d1 := old.foldl (fun d l => d.unpoison l) d1
  let d1 := marks.foldl (fun d i => d.poison (t + i)) d1
  let frames := (d.tier.promo.map Prod.snd ++ d.tier.stage.map Prod.snd).filter (fun fr => decide (s ≤ fr.page * 1024 ∧ fr.page * 1024 < s + n))
  let d1 := frames.foldl (fun (e : Dev) fr => (List.range 1024).foldl (fun (e : Dev) i =>
    let l := fr.page * 1024 + i
    if frameHas fr l then (e.wrMem ((l - s + t) * 64) (d.rdLine l).1).setPoison (l - s + t) (d.rdLine l).2 else e) e) d1
  (d1, !(d1.poisonedIn t n).isEmpty)

/-- The NVMe reads of a chunk of a T2 source: the 4 KiB blocks that no frame holds, by runs (R283, R287, R288). -/
def Dev.chunkReads (d : Dev) (n k : Nat) : Dev :=
  match extKind n, d.extSlot n with
  | .t2, some slot =>
    let l0 := n * 2 ^ 22 + k * 2 ^ 20
    let blocks := (List.range 16384).filter (fun b => d.phys (l0 + 64 * b) == l0 + 64 * b)
    (d.nvmeReads slot (extInPos n * 65536 + k * 16384) blocks .direct).1
  | _, _ => d

/-- Blocks of a chunk of a T2 source that the cartridge could not read: their lines are written poisoned, and the error is logged (R272). -/
def Dev.chunkBad (d : Dev) (c src dst k : Nat) (bad : List Nat) : Dev :=
  if extKind src ≠ .t2 then d
  else bad.foldl (fun d b =>
    let l := src * 2 ^ 22 + k * 2 ^ 20 + 64 * b
    if 16384 ≤ b ∨ d.phys l ≠ l then d
    else
      let d := (List.range 64).foldl (fun d i => d.poison (dst * 2 ^ 22 + k * 2 ^ 20 + 64 * b + i)) d
      d.logEvent { kind := 0x0A, u := true, aform := 0, tag := c, unit := (d.extSlot src).getD 0, addr := d.paOf l, detail := 0 }) d

/-- Wrong symbols that the reads of a chunk meet (16 R618, R620). -/
def Dev.chunkErrs (d : Dev) (c src k : Nat) (errs : List LineErr) : Dev :=
  let stored (l : Nat) : Bool := match extKind (lineExt (d.phys l)) with | .t0 | .t1 => true | _ => false
  errs.foldl (fun d e => if e.line / 2 ^ 20 = src * 4 + k ∧ stored e.line = true then d.decodeLine e.line e.syms c false else d) d

/-- Some page of the chunk of a T1 or T2 source has no frame that holds it: it is read by an unstaged read (R283, R287). -/
def Dev.chunkUnstaged (d : Dev) (n k : Nat) : Bool :=
  let pg0 := n * 4096 + k * 1024
  (match extKind n with | .t1 | .t2 => true | _ => false) &&
    (List.range 1024).any (fun i => (frameOf d.tier.promo (pg0 + i)).isNone && (frameOf d.tier.stage (pg0 + i)).isNone)

/-- The chunks of a settle are journaled: the destination enters IMMUTABLE, and the close record is journaled, with which the
completion record is written (R283 steps 3 and 4). -/
def Dev.settleClose (d : Dev) (slot : Nat) : Dev :=
  match kget d.tier.settles slot with
  | none => d
  | some s =>
    if s.transfer || s.closing || decide (s.done < 4) then d
    else
      let d := d.setExt s.dst { d.extent s.dst with st := .immutable }
      { d with tier.settles := kput d.tier.settles slot { s with closing := true } }.journal 0x12 s.jid (leBytes 4 1) []
        (s.op.map (fun id => (id, 0, 4194304, s.dst)))

/-- Lines of a chunk of an extent that an agent owns or that are BUSY: the Barrow's reads recall them (01 R30, 04 R152, R154). -/
def Dev.chunkOwned (d : Dev) (n k : Nat) : List Nat :=
  let inside (l : Nat) : Bool := l / 2 ^ 20 == n * 4 + k
  (d.coh.dir.filter (fun e => inside e.1 && e.2.st == .he)).map Prod.fst ++ (d.coh.txns.filter (fun e => inside e.1)).map Prod.fst

/-- A page of the chunk is being copied into a frame with lines that agents wrote back meanwhile (R269, log 18). -/
def Dev.chunkLate (d : Dev) (n k : Nat) : Bool :=
  (d.tier.promo ++ d.tier.stage).any (fun e => e.2.page / 1024 == n * 4 + k && !e.2.late.isEmpty)

/-- A settle can go on: its ends are present, which a T2 extent is once its cartridge serves its position again (R286). -/
def Dev.settleReady (d : Dev) (s : Settle) : Bool :=
  let there (n : Nat) : Bool := extKind n != .t2 || ((d.extent n).st != .absent && (d.posSlot (extPos n)).isSome)
  there s.src && there s.dst

/-- A 64 MiB chunk of a settle is written, read where it lies once agents own none of it, and journaled (R283, 01 R30). The command carries what its reads meet: wrong symbols
of lines, and blocks that the cartridge could not read. -/
def Dev.settleChunk (d : Dev) (slot : Nat) (errs : List LineErr) (bad : List Nat) : Dev :=
  match kget d.tier.settles slot with
  | none => d
  | some s =>
    if s.transfer || s.closing || d.jPending s.jid || !d.settleReady s then d
    else if (d.extent s.src).st = .lost ∨ (d.extent s.dst).st = .lost then d.settleBack slot 0x30
    else if 4 ≤ s.done then d.settleClose slot
    else if !(d.chunkOwned s.src s.done).isEmpty then d.recallOwned (d.chunkOwned s.src s.done)
    else if d.chunkLate s.src s.done then d
    else if extKind s.src = .lent ∧ s.got < 2 ^ 18 then
      if d.coh.reqs.any (fun r => r.why == .settle s.jid) then d else d.settleAsk s.jid
    else
      let un := d.chunkUnstaged s.src s.done
      let d := d.chunkReads s.src s.done
      let (d, p) := (d.chunkErrs s.chamber s.src s.done errs).copyChunk s.src s.dst s.done
      let p := p || (extKind s.src == .t2 && bad.any (fun b => let l := s.src * 2 ^ 22 + s.done * 2 ^ 20 + 64 * b; decide (b < 16384) && d.phys l == l))
      let d := d.chunkBad s.chamber s.src s.dst s.done bad
      let d := match extKind s.dst with
        | .t2 => match d.extSlot s.dst with
          | some k => ((d.wear k (2 ^ 26)).nvmeCmd k 1 (extInPos s.dst * 65536 + s.done * 16384) 16384 true .write).1
          | none => d
        | _ => d
      let d := match s.op with
        | some id => { d with ops := kmod d.ops id (fun o => { o with poison := o.poison || p, unstaged := o.unstaged || un }) }
        | none => d
      { d with tier.settles := kput d.tier.settles slot { s with done := s.done + 1, got := 0, poison := s.poison || p }
      }.journal 0x11 s.jid (leBytes 4 s.done)

/-- A journal record of a settle has committed (R283): after the open record and each chunk's number a LENT source's next chunk is
asked for, after chunk 3 the settle closes, and with its close record it leaves its journal slot. -/
def Dev.settleCommitted (d : Dev) (e : JRec) : Dev :=
  match d.settleOf e.id with
  | none => d
  | some (slot, s) =>
    if e.typ = 0x12 then { d with tier.settles := kdel d.tier.settles slot }.rcvPost s 1
    else if 4 ≤ s.done then d.settleClose slot
    else d.settleAsk e.id

/-- An extent enters LOST: its frames go, settles that read or write it end, and requests that wait for its pages end
(R57, R58, R267, R272, R285). -/
def Dev.extLost (d : Dev) (n : Nat) : Dev :=
  let pages := (d.tier.promo.map Prod.snd ++ d.tier.stage.map Prod.snd).filter (fun fr => fr.page / 4096 == n && fr.st == .filling)
  let d := d.failExt n
  let d := ((d.tier.settles.filter (fun e => (e.2.src == n || e.2.dst == n) && !e.2.transfer)).map Prod.fst).foldl
    (fun d k => d.settleBack k 0x30) d
  pages.foldl (fun d fr => d.pageDone fr.page) d

/-! ### SCHEDULE (R276-R278) -/

/-- A semaphore of a Course belongs to the Chamber: SEM 8g to 8g + 7 go with slot g (09 R348, R386). -/
def Dev.semOf (d : Dev) (course sem c : Nat) : Bool :=
  let s := bits (d.rf .MSN_CO_CFG_SLOTS course) (5 * (sem / 8)) 5
  bit s 4 && s % 16 == c

/-- A field of a schedule entry. -/
def SchedEnt.f (e : SchedEnt) (off n : Nat) : Nat := field e.raw off n

/-- The pages an entry acts on, each with the blocks that move: its CVA and a mask (R273, R277). -/
def SchedEnt.pages (e : SchedEnt) : List (Nat × Nat) :=
  let base := e.f 8 8
  if bit (e.f 0 1) 3 then
    let rows := (List.range (e.f 20 1 + 1)).map (fun r => (base + r * e.f 16 4, e.f 21 1 + 1))
    let blocks := (rows.flatMap (fun r => units 4096 r.1 r.2)).eraseDups
    ((blocks.map (fun b => b / 16)).eraseDups).map (fun pg =>
      (pg * 65536, maskOf ((blocks.filter (fun b => b / 16 == pg)).map (fun b => b % 16))))
  else (List.range (e.f 16 4)).map (fun i => (base + i * 65536, 0xFFFF))

/-- An entry passes the checks of R276 and R277; a semaphore that it names is the Chamber's own (09 R348). -/
def Dev.schedOk (d : Dev) (c idx : Nat) (e : SchedEnt) : Bool :=
  let b0 := e.f 0 1
  let trig := b0 / 16
  let tile := bit b0 3
  let base := e.f 8 8
  decide (b0 % 8 ≤ 4 ∧ trig ≤ 3) && e.f 1 1 / 64 == 0 && e.f 2 1 / 16 == 0 && e.f 3 1 == 0 && e.f 22 10 == 0 &&
    (trig != 1 || d.semOf (e.f 2 1 % 16) (e.f 1 1 % 64) c) && (trig != 2 || decide (e.f 4 4 < idx)) &&
    (if tile then decide (e.f 21 1 + 1 ≤ e.f 16 4 ∧ base + e.f 20 1 * e.f 16 4 + (e.f 21 1 + 1) ≤ 2 ^ 52)
     else base % 65536 == 0 && decide (1 ≤ e.f 16 4 ∧ e.f 16 4 ≤ 2 ^ 20 ∧ base + e.f 16 4 * 65536 ≤ 2 ^ 52))

/-- SCHEDULE reads and checks its list whole (R276). -/
def Dev.schedule (d : Dev) (id : Nat) : Dev :=
  d.runOp id 0x0B (fun o d =>
    let cva := o.f 16 8
    let n := o.f 24 2
    if cva % 32 ≠ 0 ∨ n = 0 ∨ 4096 < n ∨ o.f 26 38 ≠ 0 ∨ 2 ^ 52 < cva + 32 * n then d.endOp id 0x7F 0 0
    else d.turn id o (do
        let (b, p) ← eRead (opWho id o) cva (32 * n)
        if p then eFail 0x30
        return b)
      (fun b o d =>
        let es := (chunks 32 n b).map (fun r => ({ raw := r, started := false, pos := 0, ended := false } : SchedEnt))
        if (es.zipIdx).all (fun e => d.schedOk o.chamber e.2 e.1) then
          { d.setOp id { o with phase := .waiting } with tier.scheds := kput d.tier.scheds id es }
        else (d.setOp id o).endOp id 0x7F 0 0))

/-- The trigger of an entry is met (R277). -/
def Dev.trigMet (d : Dev) (o : Op) (es : List SchedEnt) (e : SchedEnt) : Bool :=
  match e.f 0 1 / 16 with
  | 0 => true
  | 1 => decide (e.f 4 4 ≤ d.rf .MSN_SEM_VALUE (e.f 2 1 % 16 * 64 + e.f 1 1 % 64))
  | 2 => match es[e.f 4 4]? with | some x => x.ended | none => false
  | _ => decide (o.admitted + 1000 * e.f 4 4 ≤ d.gt)

/-- The pages of an entry from the one it has reached. -/
def Dev.schedPages (d : Dev) (id idx action : Nat) (o : Op) : List (Nat × Nat) → Dev
  | [] =>
    let d := d.setOp id { o with phase := .waiting, acc2 := o.acc2 + 1 }
    let es := (sget [] d.tier.scheds id).modify idx (fun e => { e with ended := true })
    let d := { d with tier.scheds := kput d.tier.scheds id es }
    if es.all SchedEnt.ended then
      { d with tier.scheds := kdel d.tier.scheds id }.finishOp id { o with acc2 := o.acc2 + 1 } { count := o.acc, result := o.acc2 + 1 }
    else d
  | (cva, want) :: rest =>
    let step (d : Dev) : Dev :=
      { d with tier.scheds := kmod d.tier.scheds id (fun es => es.modify idx (fun e => { e with pos := e.pos + 1 })) }
    let note (_ : Nat) (d : Dev) : Dev := step { d with ops := kmod d.ops id (fun o => { o with acc := o.acc + 1 }) }
    d.turn id o (ePlace (opWho id o) action cva want note)
      (fun r o d => Dev.schedPages (step d) id idx action { o with acc := o.acc + r.1 } rest)

/-- An entry of a schedule starts, or goes on (R277, R278). `timer` marks a TIMER entry whose time has come. -/
def Dev.schedEntry (d : Dev) (id idx : Nat) (timer : Bool) : Dev :=
  match kget d.ops id, kget d.tier.scheds id with
  | some o, some es =>
    match es[idx]? with
    | none => d
    | some e =>
      let may : Bool := match o.phase with
        | .waiting => true
        | .blocked b => d.cleared o.chamber o.ans b
        | _ => false
      let isTimer := e.f 0 1 / 16 == 3
      let earlier := (es.take idx).any (fun x => !x.started && d.trigMet o es x)
      if e.ended || !may || (!e.started && (isTimer != timer || (!timer && !d.trigMet o es e) || earlier)) then d
      else
        let d := { d with tier.scheds := kput d.tier.scheds id (es.modify idx (fun e => { e with started := true })) }
        d.schedPages id idx (e.f 0 1 % 8) o (e.pages.drop e.pos)
  | _, _ => d

end Sys2Proof.Machine
end

