-- ==== Sys2Proof/Machine/Cartridges.lean ====
section
/-!
DEFINITION. Strata cartridges: commands, transfers, failures and authentication (07 R288-R292, R299, 15 R597, R598, R610, R611).
-/

namespace Sys2Proof.Machine

/-- An empty slot. -/
def emptyCart : Cart :=
  { fitted := false, linkUp := false, authStep := 0, serial := 0, capacity := 0, life := 0, cert := 0, nonce := 0,
    warned := false, limited := false, load := false, fresh := false, cmds := [], nextCmd := 0 }

/-- The cartridge of a slot. -/
def Dev.cart (d : Dev) (k : Nat) : Cart := sget emptyCart d.tier.carts k

/-- The device with a slot's cartridge replaced. -/
def Dev.setCart (d : Dev) (k : Nat) (c : Cart) : Dev := { d with tier.carts := kput d.tier.carts k c }

/-- A slot's STATE (R296). -/
def Dev.cartState (d : Dev) (k : Nat) : Nat := d.rf .TIE_CART_STS_STATE k

/-- Extents that a cartridge of the slot backs (02 R55). -/
def Dev.cartExts (d : Dev) (k : Nat) : Nat := min 0x1C000 ((d.cart k).capacity / 2 ^ 28)

/-- Extents of a T2 position in one of the states. -/
def Dev.posExts (d : Dev) (pos : Nat) (sts : List ExtState) : List Nat :=
  (d.ext.filter (fun e => decide (0x20000 ≤ e.1) && extPos e.1 == pos && sts.contains e.2.st)).map Prod.fst

/-- A command of R292 ends at once with a RESULT. -/
def Dev.cartResult (d : Dev) (r : Nat) : Dev := (d.wf .TIE_CART_CSTS_RESULT 0 r).wb .TIE_CART_CSTS_BUSY 0 false

/-- TRANSFER s → t (R292). -/
def Dev.cartTransfer (d : Dev) (s t : Nat) : Dev :=
  if d.rb .TIE_CART_CSTS_BUSY then d
  else if d.cartState s = 3 ∧ d.cartState t = 2 ∧ d.rb .TIE_CART_STS_LIMIT t = false then
    let pos := d.rf .TIE_CART_STS_POS s
    let d := ((d.wf .TIE_CART_STS_STATE s 4).wf .TIE_CART_STS_STATE t 4).wf .TIE_CART_CSTS_DONE_EXT 0 0
    { d.wb .TIE_CART_CSTS_BUSY 0 true with
        tier.xfer := some { s := s, t := t, pos := pos, done := 0 }, tier.moved := [] }
  else d.cartResult 1

/-- T2 extents enter ABSENT, and their frames go (02 R55, R58, R292). -/
def Dev.absentExts (d : Dev) (ns : List Nat) : Dev := ns.foldl (fun d n => (d.dropFrames n).enterAbsent n) d

/-- Every state of an extent that has backing. -/
def backedStates : List ExtState := [.free, .open_, .immutable, .settling, .lost]

/-- A slot takes a position: its STATE, POS and the repair map's cartridge map (R292, R597). Extents past its cartridge's capacity are ABSENT
(02 R55, DESIGN CHOICE, log 148). -/
def Dev.takePos (d : Dev) (k pos : Nat) : Dev :=
  let d := (d.wf .TIE_CART_STS_STATE k 3).wf .TIE_CART_STS_POS k pos
  { d with led.cartMap := kput d.led.cartMap pos k }.absentExts ((d.posExts pos backedStates).filter (fun n => decide (d.cartExts k ≤ extInPos n)))

/-- A cartridge is formatted: Format NVM (R288). -/
def Dev.formatCart (d : Dev) (k : Nat) : Dev := (d.nvmeCmd k 0x80 0 0 false .write).1

/-- TAKEOVER t of the position of the FAILED slot s (R292). -/
def Dev.cartTakeover (d : Dev) (s t : Nat) : Dev :=
  if d.rb .TIE_CART_CSTS_BUSY then d
  else
    let pos := d.rf .TIE_CART_STS_POS s
    if d.cartState s = 6 ∧ pos < 8 ∧ d.cartState t = 2 then
      (((d.wf .TIE_CART_STS_POS s 15).takePos t pos).formatCart t).cartResult 0
    else d.cartResult 1

/-- RETIRE s (R292). -/
def Dev.cartRetire (d : Dev) (s : Nat) : Dev :=
  if d.rb .TIE_CART_CSTS_BUSY then d
  else
    let pos := d.rf .TIE_CART_STS_POS s
    if d.cartState s = 3 ∧ (d.posExts pos [.immutable, .settling]).isEmpty = true then
      let d := d.absentExts (d.posExts pos backedStates)
      let d := (d.wf .TIE_CART_STS_STATE s 5).wf .TIE_CART_STS_POS s 15
      { d with led.cartMap := kdel d.led.cartMap pos }.cartResult 0
    else d.cartResult 1

/-- RELEASE s (R292). -/
def Dev.cartRelease (d : Dev) (s : Nat) : Dev :=
  if d.rb .TIE_CART_CSTS_BUSY then d
  else if d.cartState s = 5 ∨ d.cartState s = 6 ∨ d.cartState s = 1 then
    ((d.wf .TIE_CART_STS_STATE s 7).setCart s { d.cart s with linkUp := false, cmds := [], authStep := 0 }).cartResult 0
  else d.cartResult 1

/-- A write of TIE_CART_CMD (R299). -/
def Dev.cartCommand (d : Dev) (op s t : Nat) : Dev :=
  match op with
  | 1 => d.cartTransfer s t
  | 2 => d.cartTakeover s t
  | 3 => d.cartRetire s
  | 4 => d.cartRelease s
  | _ => if d.rb .TIE_CART_CSTS_BUSY then d else d.cartResult 1

/-- The journal slot of the transfer in progress (R283, R292). -/
def Dev.xferSlot (d : Dev) : Option (Nat × Settle) := d.tier.settles.find? (fun e => e.2.transfer)

/-- A transfer ends: its journal slot is freed. -/
def Dev.xferEnd (d : Dev) (result : Nat) : Dev :=
  let d := match d.xferSlot with
    | some (k, s) => ({ d with tier.settles := kdel d.tier.settles k }.journal 0x12 s.jid (leBytes 4 result)).rcvPost s (if result = 0 then 1 else 2)
    | none => d
  { d with tier.xfer := none, tier.moved := [] }.cartResult result

/-- The next extent that a transfer copies: an IMMUTABLE one of its position that the target holds not yet and has room for (R292, log 148). -/
def Dev.xferNext (d : Dev) (x : Transfer) : Option Nat :=
  (d.posExts x.pos [.immutable]).find? (fun n => !d.tier.moved.contains n && decide (extInPos n < d.cartExts x.t))

/-- A transfer takes the next extent in hand, as a settle of its own: its open record is journaled, and s reads it. When none is left, nor any
that is still SETTLING, the target takes the position (R283, R292). -/
def Dev.xferBegin (d : Dev) (x : Transfer) : Dev :=
  match d.xferNext x with
  | some n =>
    if 64 ≤ d.tier.settles.length ∨ d.jRoom = false then d
    else
      let jid := 2 ^ 40 + d.led.jseq
      let s : Settle := { jid := jid, op := none, chamber := 0, src := n, dst := n, done := 0, poison := false, transfer := true,
                          recovered := false, closing := false, got := 0 }
      let d := { d with tier.settles := kput d.tier.settles (freshKey d.tier.settles 0) s }
      (d.nvmeReads x.s (extInPos n * 65536) (List.range 65536) .direct).1.journal 0x10 jid (leBytes 4 0 ++ leBytes 4 n ++ leBytes 4 n)
  | none =>
    if (d.posExts x.pos [.settling]).isEmpty then
      (((d.wf .TIE_CART_STS_STATE x.s 5).wf .TIE_CART_STS_POS x.s 15).takePos x.t x.pos).xferEnd 0
    else d

/-- WRITTEN frames of an extent, which hold the only current bytes of their pages: a copy of the extent takes them (R265, R283). -/
def Dev.writtenDown (d : Dev) (n : Nat) : Dev :=
  (d.tier.promo.filter (fun e => e.2.page / 4096 == n && e.2.st == .written)).foldl (fun (e : Dev) f =>
    (List.range 1024).foldl (fun (e : Dev) i =>
      let l := f.2.page * 1024 + i
      if frameHas f.2 l then (e.wrMem (l * 64) (d.rdLine l).1).setPoison l (d.rdLine l).2 else e) e) d

/-- The extent that a transfer has in hand commits on its target, once its open record is journaled and no agent owns a line of it; or the
next is taken in hand (R283, R292, 01 R30). -/
def Dev.transferExtent (d : Dev) : Dev :=
  match d.tier.xfer with
  | none => d
  | some x =>
    if d.cartState x.s ≠ 4 ∨ d.cartState x.t ≠ 4 then d
    else match d.xferSlot with
    | none => d.xferBegin x
    | some (k, s) =>
      let owned := (List.range 4).flatMap (fun i => d.chunkOwned s.src i)
      if d.jPending s.jid then d
      else if !owned.isEmpty then d.recallOwned owned
      else if (List.range 4).any (fun i => d.chunkLate s.src i) then d
      else if (d.extent s.src).st ≠ .immutable then
        { d with tier.settles := kdel d.tier.settles k }.journal 0x12 s.jid (leBytes 4 2)
      else
        let d := ((d.writtenDown s.src).wear x.t (2 ^ 28)).inc .TIE_CART_CSTS_DONE_EXT 0
        let d := (d.nvmeCmd x.t 1 (extInPos s.src * 65536) 65536 true .write).1
        let x := { x with done := x.done + 1 }
        let d := { d with tier.xfer := some x, tier.moved := s.src :: d.tier.moved, tier.settles := kdel d.tier.settles k }
        let d := (d.journal 0x12 s.jid (leBytes 4 1)).rcvPost s 1
        if (d.xferNext x).isNone then d.xferBegin x else d

/-- A cartridge fails (R291, R292): its slot is FAILED and every extent of its position with data is LOST. In a transfer, a
failed source leaves the committed extents and the position to the target; a failed target stops the transfer. Unstaged reads that wait
return poisoned data (R272). -/
def Dev.cartFail (d : Dev) (k : Nat) : Dev :=
  let pos := d.rf .TIE_CART_STS_POS k
  let d := (d.cart k).cmds.foldl (fun (d : Dev) e => match e.2 with
    | .unstaged why blk => d.giveAns why [ownAns (2 ^ 51 + blk) false [] true]
    | _ => d) d
  let d := d.setCart k { d.cart k with cmds := [], authStep := 0 }
  let log (d : Dev) : Dev :=
    (d.logEvent { kind := 0x0A, u := true, unit := k, detail := 1 }).send (.report 2 k)
  let moved := d.tier.moved
  match d.tier.xfer with
  | some x =>
    if x.s = k then
      let d := log ((d.wf .TIE_CART_STS_STATE k 6).wf .TIE_CART_STS_POS k 15)
      let lost := (d.posExts pos [.immutable, .settling]).filter (fun n => !moved.contains n)
      (lost.foldl (fun d n => d.extLost n) (d.takePos x.t pos)).xferEnd 3
    else if x.t = k then (log ((d.wf .TIE_CART_STS_STATE k 6).wf .TIE_CART_STS_STATE x.s 3)).xferEnd 2
    else
      let d := log (d.wf .TIE_CART_STS_STATE k 6)
      if pos < 8 then (d.posExts pos [.immutable, .settling]).foldl (fun d n => d.extLost n) d else d
  | none =>
    let d := log (d.wf .TIE_CART_STS_STATE k 6)
    if pos < 8 then (d.posExts pos [.immutable, .settling]).foldl (fun d n => d.extLost n) d else d

/-- The slot serves a position, or takes part in a transfer. -/
def Dev.cartServes (d : Dev) (k : Nat) : Bool := d.cartState k == 3 || d.cartState k == 4

/-- Authentication fails at a step (R289, R610, R611). -/
def Dev.authFail (d : Dev) (k step : Nat) : Dev :=
  if d.cartServes k then d.cartFail k
  else
    let d := d.setCart k { d.cart k with authStep := 0, cmds := [] }
    ((d.wf .TIE_CART_STS_STATE k 1).wf .TIE_CART_STS_POS k 15).logEvent { kind := 0x0B, u := false, unit := k, detail := step }

/-- Sends an NVMe command of the authentication (R288, R610). -/
def Dev.authCmd (d : Dev) (k step opcode arg : Nat) : Dev :=
  ((d.setCart k { d.cart k with authStep := step }).nvmeCmd k opcode arg 0 false .auth).1

/-- Authentication starts: Identify Controller (R610 step 1); `load` marks the one that a Bond load makes. -/
def Dev.authStart (d : Dev) (k : Nat) (load : Bool := false) : Dev := (d.setCart k { d.cart k with load := load }).authCmd k 1 6 1

/-- At a Bond load a cartridge backs its position: each extent of it that the table lists as ABSENT takes the state and owner of the T2 map, or
FREE (02 R58, 15 R593). -/
def Dev.restoreT2 (d : Dev) (k pos : Nat) : Dev :=
  let first := 0x20000 + pos * 0x1C000
  let n := d.cartExts k
  let put (i : Nat) : Option (Nat × Ext) :=
    let e := d.extent (first + i)
    if e.st ≠ .absent then some (first + i, e)
    else match kget d.led.t2 (first + i) with
      | some r => some (first + i, { r with target := 0, port := 0, gen := e.gen })
      | none => some (first + i, { e with st := .free, gen := (e.gen + 1) % 256 })
  let kept := d.ext.filter (fun e => decide (first + n ≤ e.1) && decide (e.1 < first + 0x1C000))
  { d with led.t2 := d.led.t2.filter (fun e => !(decide (first ≤ e.1) && decide (e.1 < first + n))),
           ext := d.ext.filter (fun e => decide (e.1 < first)) ++ (List.range n).filterMap put ++ kept ++
                  d.ext.filter (fun e => decide (first + 0x1C000 ≤ e.1)) }

/-- WARN and LIMIT as the wear count stands: after a reset they are set again with no new entry in the log (R290, DESIGN CHOICE, log 148). -/
def Dev.wearMarks (d : Dev) (k : Nat) : Dev :=
  let life := d.rf .TIE_CART_LIFE_BYTES k
  let at_ (pct : Nat) : Bool := life != 0 && decide (pct * life ≤ 100 * d.rf .TIE_CART_WEAR_BYTES k)
  (d.wb .TIE_CART_STS_WARN k (at_ (d.rf .TIE_WEAR_CFG_WARN))).wb .TIE_CART_STS_LIMIT k (at_ (d.rf .TIE_WEAR_CFG_LIMIT))

/-- A cartridge that is given no position becomes READY; one inserted since is formatted, which its first attach is (R288, log 148). -/
def Dev.cartReady (d : Dev) (k : Nat) : Dev :=
  let fresh := (d.cart k).fresh
  let d := ((d.wf .TIE_CART_STS_STATE k 2).wf .TIE_CART_STS_POS k 15).setCart k { d.cart k with fresh := false }
  if fresh then d.formatCart k else d

/-- Authentication has succeeded: the rated life is copied, and the slot is READY or takes its position, or its part in the transfer
that a reset interrupted (R286, R289, R292, R610). -/
def Dev.authDone (d : Dev) (k : Nat) : Dev :=
  let c := d.cart k
  let d := ((d.setCart k { c with authStep := 0 }).wf .TIE_CART_LIFE_BYTES k c.life).wearMarks k
  let back (d : Dev) (pos : Nat) : Dev := if c.load then d.restoreT2 k pos else d
  if d.cartServes k then d
  else match d.led.cartMap.find? (fun e => e.2 == k), d.tier.xfer with
    | some (pos, _), some x =>
      back (if x.s = k then (d.wf .TIE_CART_STS_STATE k 4).wf .TIE_CART_STS_POS k pos else d.takePos k pos) pos
    | some (pos, _), none => back (d.takePos k pos) pos
    | none, some x => if x.t = k then d.wf .TIE_CART_STS_STATE k 4 else d.cartReady k
    | none, none => d.cartReady k

/-- An authentication command is answered (R610 steps 1 to 5). -/
def Dev.authStepDone (d : Dev) (k : Nat) (a : CartIdent) : Dev :=
  let c := d.cart k
  match c.authStep with
  | 1 => (d.setCart k { c with serial := a.serial, capacity := a.capacity }).authCmd k 2 2 0xC6
  | 2 =>
    if Config.cartChain a.cert a.certSerial c.capacity a.life && a.certSerial == c.serial && decide (c.capacity ≤ 30720000000000) then
      let nonce := Config.free d.fresh % 2 ^ 80
      ((d.drawn).setCart k { c with life := a.life, cert := a.cert, nonce := nonce }).authCmd k 4 2 0xC7
    else d.authFail k 3
  | 4 =>
    if Config.cartSigned c.cert c.nonce (d.rf .SEC_SERIAL_SERIAL) c.serial a.sig then d.authDone k else d.authFail k 5
  | _ => d

/-- A cartridge completes an NVMe command: the frames that wait for its read can be filled, its failed blocks marked; an unstaged read is
answered; or the authentication goes on (R272, R287, R288, R610). `bad` marks the 4 KiB blocks with media errors. -/
def Dev.nvmeDone (d : Dev) (k id bad : Nat) (a : CartIdent) : Dev :=
  let c := d.cart k
  match kget c.cmds id with
  | none => d
  | some why =>
    let d := d.setCart k { c with cmds := kdel c.cmds id }
    match why with
    | .auth => d.authStepDone k a
    | .direct => d
    | .write => d
    | .unstaged why blk =>
      let n := blk / 65536
      let hit := bit bad (blk % 16)
      let d := d.giveAns why [ownAns (2 ^ 51 + blk) false [] hit]
      if hit then d.logEvent { kind := 0x0A, u := true, aform := 0, tag := (d.extent n).chamber, unit := k, addr := d.paOf (blk * 64), detail := 0 }
      else d
    | .fill pg =>
      let rest := ((kdel c.cmds id).find? (fun x => x.2 == .fill pg)).map Prod.fst
      let upd (m : Map Frame) : Map Frame := m.map (fun e =>
        if e.2.page = pg ∧ e.2.cmd.isSome then (e.1, { e.2 with cmd := rest, bad := e.2.bad ||| bad }) else e)
      { d with tier.promo := upd d.tier.promo, tier.stage := upd d.tier.stage }

/-- TIE_CART_TMO ends for a command (R291); during authentication of a slot that serves nothing the slot is REFUSED (R610). -/
def Dev.cartTimeout (d : Dev) (k : Nat) : Dev :=
  let c := d.cart k
  if c.cmds.isEmpty then d
  else if c.authStep ≠ 0 ∧ d.cartServes k = false then d.authFail k c.authStep else d.cartFail k

/-- A cartridge reports itself failed (R291). -/
def Dev.cartReport (d : Dev) (k : Nat) : Dev :=
  if (d.cart k).fitted && d.cartState k != 6 && d.cartState k != 7 then d.cartFail k else d

/-- A cartridge is removed (R291): while it serves it fails, else its slot is EMPTY. -/
def Dev.cartRemoved (d : Dev) (k : Nat) : Dev :=
  if !(d.cart k).fitted then d
  else
    let d := if d.cartServes k then d.cartFail k
      else if d.cartState k = 6 then d else (d.wf .TIE_CART_STS_STATE k 0).wf .TIE_CART_STS_POS k 15
    d.setCart k emptyCart

/-- A cartridge is inserted: its slot has written nothing to it yet, and authentication starts (R297, R610, DESIGN CHOICE, log 148). -/
def Dev.cartInserted (d : Dev) (k : Nat) : Dev :=
  if (d.cart k).fitted then d
  else
    let d := (d.setCart k { emptyCart with fitted := true, linkUp := true, fresh := true }).wf .TIE_CART_WEAR_BYTES k 0
    (((d.wf .TIE_CART_STS_STATE k 0).wb .TIE_CART_STS_WARN k false).wb .TIE_CART_STS_LIMIT k false).authStart k

/-- A cartridge's link comes up: authentication starts (R610); `load` says that a Bond load starts it, as it stays for one that such a load
began (02 R58). -/
def Dev.cartLinkUp (d : Dev) (k : Nat) (load : Bool := false) : Dev :=
  let c := d.cart k
  if c.fitted then (d.setCart k { c with linkUp := true, cmds := [] }).authStart k (load || (c.load && c.authStep != 0)) else d

/-- Authentication has not ended within 2 s (R610). -/
def Dev.authTimeout (d : Dev) (k : Nat) : Dev :=
  if (d.cart k).authStep ≠ 0 then d.authFail k (d.cart k).authStep else d

end Sys2Proof.Machine
end

