-- ==== Sys2Proof/Machine/Faults.lean ====
section
/-!
DEFINITION. Delivery and resumption of faults, invalidations, roots and access counters (08 R310-R315, R320-R325,
R330, R338).
-/

namespace Sys2Proof.Machine

/-- The oldest record of the open batch has reached XLT_FQ_CFG.AGE (R320). -/
def Dev.faultBatchAge (d : Dev) (c : Nat) : Dev := d.closeBatch c

/-- A slot that waits for its translation begins its walk at the root (R323). -/
def Dev.walkRoot (d : Dev) (sl : Slot) : Slot :=
  { sl.resumed d.gt (.walk 2 (d.rootOf sl.chamber)) with bypass := false, ans := [] }

/-- The batch that delivered a record is not after `b` (R323). -/
def FRec.upTo (r : FRec) (b : Nat) : Bool := match r.batch with | some k => !serialAfter 32 k b | none => false

/-- A write of XLT_FQ_RESUME (R323). -/
def Dev.faultResume (d : Dev) (c b : Nat) : Dev :=
  if serialAfter 32 b (d.rf .XLT_FQ_SEQ_DELIVERED c) || !serialAfter 32 b (d.rf .XLT_FQ_SEQ_RESUMED c) then
    d.bump .XLT_FLT_CNT_BADRES c
  else
    let d := d.wf .XLT_FQ_SEQ_RESUMED c b
    let gone (page : Nat) : Bool := match kget d.xlt.recs (recKey c page) with | some r => r.upTo b | none => true
    let slots := d.coh.slots.map (fun e => match e.2.phase with
      | .fault page => if e.2.chamber == c && gone page then (e.1, d.walkRoot e.2) else e
      | _ => e)
    { d with coh.slots := slots, xlt.recs := d.xlt.recs.filter (fun e => !(e.1 / 2 ^ 36 == c && e.2.upTo b)) }

/-- A write of XLT_FQ_PTR.HEAD (R338). -/
def Dev.fqHeadWrite (d : Dev) (c v : Nat) : Dev :=
  if 4096 < subMod 32 (d.rf .XLT_FQ_PTR_TAIL c) v then d else d.wf .XLT_FQ_PTR_HEAD c v

/-! ### Invalidation -/

/-- The slot has been translated and its access is not performed yet (R313). -/
def Slot.translated (sl : Slot) : Bool :=
  match sl.phase with
  | .walk .. | .fault _ | .stalled _ | .order | .sweep => false
  | _ => !sl.msg.af && (isRead sl.msg.opc || isWrite sl.msg.opc)

/-- The pages [first, first + n) of the leaf that translated the slot overlap the range dropped (R313). -/
def Slot.overlaps (sl : Slot) (c first n : Nat) (all : Bool) : Bool :=
  let w := leafShift sl.level
  tlbOverlaps { chamber := sl.chamber, level := sl.level, vpn := sl.msg.addr.toNat % 2 ^ 52 / 2 ^ w, pte := 0 } c first n all

/-- An engine's request that a dropped entry translated is in flight (R313). -/
def DevReq.overlaps (r : DevReq) (c first n : Nat) (all : Bool) : Bool :=
  match r.tr with
  | some (level, cva) => r.msg.chamber.toNat == c &&
      tlbOverlaps { chamber := c, level := level, vpn := cva % 2 ^ 52 / 2 ^ leafShift level, pte := 0 } c first n all
  | none => false

/-- The engines of a Chamber that hold answers: operations, bricks, Portal requests, work of the service cores. -/
def Dev.enginesOf (d : Dev) (c : Nat) : List ReqFor :=
  ((d.ops.filter (fun e => e.2.chamber == c)).map (fun e => ReqFor.op e.1)) ++
    (d.masons.filter (fun e => e.2.run.any (fun id => (kget d.ops id).any (fun o => o.chamber == c)))).flatMap (fun e =>
      (List.range 4).map (fun u => .mason (4 * e.1 + u))) ++
    ((d.net.reqs.filter (fun e => e.2.chamber == c)).map (fun e => .portal e.1)) ++
    ((d.svcs.filter (fun e => e.2.chamber == c)).map (fun e => .svc e.1))

/-- Walks of the Chamber's engines that are in progress begin again: what they have read is dropped, and what they have asked of other homes
is read anew (R313). -/
def Dev.rewalk (d : Dev) (c : Nat) : Dev :=
  let who := d.enginesOf c
  let d := who.foldl (fun d w => d.dropPtes w) d
  let asked (r : DevReq) : Bool := (ownAns r.line false [] false).ofWalk && who.contains r.why
  let mine := d.coh.reqs.filter asked
  mine.foldl (fun d r => d.giveAns r.why [ownAns r.line true [] false])
    { d with coh.reqs := d.coh.reqs.map (fun r => if asked r then { r with why := .none } else r) }

/-- Starts an invalidation: the translations are dropped, the walks in progress begin again, and what was translated with
a dropped entry and is under way is noted (R313, R314, log 96). -/
def Dev.invalidate (d : Dev) (c first n : Nat) (all : Bool) (port : Option Nat) (msg : Option Msg) : Dev :=
  let off := d.chmState c = 4
  let all := all || off
  let d := d.dropXlt c first n all
  let walking (sl : Slot) : Bool := sl.chamber == c && (match sl.phase with | .walk .. => true | _ => false)
  let restart := (d.coh.slots.filter (fun e => walking e.2)).map Prod.fst
  let slots := d.coh.slots.map (fun e => if walking e.2 then
    (e.1, { e.2 with phase := .walk 2 (d.rootOf c), bypass := false, ans := [] }) else e)
  let deps := (d.coh.slots.filter (fun e => e.2.translated && e.2.overlaps c first n all)).map (fun e => e.2.seq)
  let reqs := (d.coh.reqs.filter (fun r => r.overlaps c first n all)).map (fun r => r.msg.tag.toNat)
  let outs := d.coh.reqs.map (fun r => match r.why with
    | .walk id => if restart.contains id then { r with why := .none } else r
    | _ => r)
  let inv : Inv := { chamber := c, port := port, msg := msg, arrived := d.gt, deps := deps, reqs := reqs, disabled := off }
  { d with coh.slots := slots, coh.reqs := outs, xlt.invs := d.xlt.invs ++ [inv] }.rewalk c

/-- XACK to an XINV (R311). -/
def xackMsg (q : Msg) (status : Nat) : Msg := { ansMsg 0x49 2 q with status := BitVec.ofNat 8 status }

/-- An XINV is checked and started (04 R132, R219, R310, R311, R314). -/
def Dev.xinvTake (d : Dev) (port : Nat) (m : Msg) : Dev :=
  let c := m.chamber.toNat
  let a := m.args.toNat
  let all := bit a 16
  let pages := a / 2 ^ 32
  let bad (d : Dev) : Dev := d.send (.msg port (xackMsg m 0x7F))
  if d.peerShut port then d
  else if m.af || !d.senderListed port m then bad (d.logProtocol port m)
  else if !bit (d.rf .HUB_FP_CFG_CHAMBERS port) c || !d.chmDefined c then
    bad (d.failCheck c 1 m.addr.toNat m.opc m.src.toNat)
  else if !all && (m.addr.toNat % 65536 != 0 || decide (2 ^ 52 ≤ m.addr.toNat) || !decide (1 ≤ pages ∧ pages ≤ 2 ^ 24)) then bad d
  else d.invalidate c (m.addr.toNat / 65536) pages all (some port) (some m)

/-- An XINV arrives on a port (R311). -/
def Dev.xinv (d : Dev) (port : Nat) (m : Msg) : Dev := d.onMortar port 0x48 m (fun d m => d.xinvTake port m)

/-- A write of XLT_INV_CMD (R312): `page` is CVA [51:16] of the first page, `pages` one less than their number. -/
def Dev.invalidateRegister (d : Dev) (c page : Nat) (all : Bool) (pages : Nat) : Dev :=
  if !d.chmDefined c then d.wb .XLT_INV_STS_REFUSED c true
  else if 16 ≤ subMod 30 (d.rf .XLT_INV_STS_ISSUED c) (d.rf .XLT_INV_STS_DONE c) then d.wb .XLT_INV_STS_OVERRUN c true
  else (d.inc .XLT_INV_STS_ISSUED c).invalidate c page (pages + 1) all none none

/-- The oldest invalidation of a Chamber (R314). -/
def Dev.firstInv (d : Dev) (c : Nat) : Option Inv := d.xlt.invs.find? (fun v => v.chamber == c)

/-- Nothing that a dropped entry translated is still to be performed (R313). -/
def Dev.invReady (d : Dev) (v : Inv) : Bool :=
  !d.coh.slots.any (fun e => v.deps.contains e.2.seq) && !d.coh.reqs.any (fun r => v.reqs.contains r.msg.tag.toNat)

/-- Acknowledges an invalidation (R312-R314). -/
def Dev.invAck (d : Dev) (v : Inv) (timeout : Bool) : Dev :=
  let d := { d with xlt.invs := d.xlt.invs.erase v }
  let status := if v.disabled then 0x21 else if timeout then 0x50 else 0
  match v.port, v.msg with
  | some p, some m => d.send (.msg p (xackMsg m status))
  | _, _ =>
    let d := d.inc .XLT_INV_STS_DONE v.chamber
    if timeout && !v.disabled then d.wb .XLT_INV_STS_TIMEOUT v.chamber true else d

/-- The oldest invalidation of the Chamber is complete (R313). -/
def Dev.xinvAckReady (d : Dev) (c : Nat) : Dev :=
  match d.firstInv c with
  | some v => if d.invReady v then d.invAck v false else d
  | none => d

/-- The oldest invalidation of the Chamber has waited MRT_REQ_TMO for an access (R313). -/
def Dev.xinvAckTimeout (d : Dev) (c : Nat) : Dev :=
  match d.firstInv c with
  | some v => if d.invReady v then d else d.invAck v true
  | none => d

/-- A write of XLT_CHM_ROOT (R315): `root` is PA [55:15]. -/
def Dev.rootWrite (d : Dev) (c root : Nat) : Dev := (d.dropXlt c 0 0 true).wf .XLT_CHM_ROOT_ROOT c root

/-- Every access counter is halved (R330, R332). -/
def Dev.counterDecay (d : Dev) : Dev :=
  { d with xlt.acnt := (d.xlt.acnt.map (fun e => (e.1, e.2 / 2))).filter (fun e => e.2 != 0), xlt.asrc := [] }

end Sys2Proof.Machine
end

