-- ==== Sys2Proof/Machine/Errors.lean ====
section
/-!
DEFINITION. Scrub passes, the error log's freeing, telemetry, background work, refresh and calibration (16 R626-R634,
R643, R645, R649).
-/

namespace Sys2Proof.Machine

/-- A scrub pass that has begun. -/
def emptyScrub : Scrub :=
  { lines := 0, corrected := 0, uncorr := 0, poisoned := 0, skipped := 0, first := none, pages := [], status := 0 }

/-- Where copies of a line are stored and checked by the line code: its own place in T0 or T1, and frames (R627). -/
def Dev.copies (d : Dev) (line : Nat) : List Nat :=
  let own := match extKind (lineExt line) with | .t2 | .lent | .remote => [] | _ => [line]
  let inPool (m : Map Frame) (base : Nat → Nat) : List Nat :=
    match frameOf m (line / 1024) with
    | some (f, fr) => if frameHas fr line then [base f + line % 1024] else []
    | none => []
  own ++ inPool d.tier.promo d.promoLine ++ inPool d.tier.stage d.stageLine

/-- Checks every stored copy of one line (R627); `errs` names stored lines, `addr` is what FIRST_UE would hold. -/
def Dev.scrubLine (d : Dev) (sc : Scrub) (line addr tag : Nat) (errs : List LineErr) : Dev × Scrub :=
  let syms (p : Nat) : List (Fin 36) := ((errs.find? (fun e => e.line == p)).map LineErr.syms).getD []
  let step (x : Dev × List Nat) (p : Nat) : Dev × List Nat :=
    (x.1.decodeAt line p (syms p) tag true, x.2 ++ [x.1.decodeKind p (syms p)])
  let (d, ks) := (d.copies line).foldl step (d, [])
  let poisoned := ks.contains 3 || (extKind (lineExt line) == .t2 && d.poisoned line)
  (d, { sc with lines := sc.lines + 1, corrected := sc.corrected + b2n (ks.contains 1),
                uncorr := sc.uncorr + b2n (ks.contains 2), poisoned := sc.poisoned + b2n poisoned,
                first := if ks.contains 2 && sc.first.isNone then some addr else sc.first })

/-- Reads the cartridge blocks of a T2 page: a block with a media error marks each of its lines (R627, 07 R272). -/
def Dev.scrubBlocks (d : Dev) (sc : Scrub) (pg addr tag : Nat) (bad : List Nat) : Dev × Scrub :=
  ((List.range 16).filter (fun b => bad.contains (pg * 16 + b))).foldl (fun x b =>
    let ls := (List.range 64).map (fun i => pg * 1024 + b * 64 + i)
    let new := (ls.filter (fun l => !x.1.poisoned l)).length
    let d := (ls.foldl (fun d l => d.poison l) x.1).logEvent
      { kind := 0x0A, u := true, aform := 0, tag := tag, unit := (x.1.posSlot (extPos (pg / 4096))).getD 0,
        addr := x.1.paOf (pg * 1024 + b * 64), detail := 0 }
    (d, { x.2 with uncorr := x.2.uncorr + new,
                   first := if x.2.first.isNone && new != 0 then some (addr + b * 4096) else x.2.first })) (d, sc)

/-- Checks one local page (R627). -/
def Dev.scrubPage (d : Dev) (sc : Scrub) (pg addr tag : Nat) (t2 : Bool) (errs : List LineErr) (bad : List Nat) : Dev × Scrub :=
  let n := pg / 4096
  let sc := { sc with pages := sc.pages ++ [pg] }
  match extKind n with
  | .lent | .remote | .none => (d, { sc with skipped := sc.skipped + 1024 })
  | k =>
    if k = .t2 && !t2 then (d, { sc with skipped := sc.skipped + 1024 })
    else
      let (d, sc) := (List.range 1024).foldl (fun x i => x.1.scrubLine x.2 (pg * 1024 + i) (addr + i * 64) tag errs) (d, sc)
      if k = .t2 then d.scrubBlocks sc pg addr tag bad else (d, sc)

/-- The summary record (R628). -/
def scrubRecord (sc : Scrub) (time : Nat) : Bytes :=
  leBytes 8 sc.lines ++ leBytes 8 sc.corrected ++ leBytes 8 sc.uncorr ++ leBytes 8 sc.poisoned ++ leBytes 8 sc.skipped ++
    leBytes 8 time ++ leBytes 8 (sc.first.getD (2 ^ 64 - 1)) ++ zeros 8

/-- Some line of the pages is poisoned, where it is stored now (R629). -/
def Dev.anyPoison (d : Dev) (pages : List Nat) : Bool :=
  pages.any (fun pg => (List.range 1024).any (fun i => d.poisoned (d.phys (pg * 1024 + i))))

/-- The part of a SCRUB's engine work on one page: the status that ends the pass, 0 to go on. A page homed on another
device is skipped and counted (log 30). -/
def eScrubPage (w : Who) (id cva : Nat) (t2 : Bool) (errs : List LineErr) (bad : List Nat) : Eng Nat := do
  let d ← eGet
  let sc := (kget d.err.scrubs id).getD emptyScrub
  let put (d : Dev) (sc : Scrub) : Dev := { d with err.scrubs := kput d.err.scrubs id sc }
  let skip : Eng Nat := do
    eMod (fun d => put d { sc with skipped := sc.skipped + 1024 })
    return 0
  match (← eXlate { w with nfz := true } cva false) with
  | none => skip
  | some x =>
    let d ← eGet
    match d.localLine x.pa with
    | none => if d.route x.pa == .bad then do eMod (fun d => d.failCheck w.chamber 1 cva 0x10); return 0x7F else skip
    | some (l, via) =>
      match d.stage4 w.chamber (lineExt l) false via with
      | .check => do eMod (fun d => d.failCheck w.chamber 1 cva 0x10); return 0x7F
      | .revoked => return 0x40
      | .held => eBlock (.held (lineExt l)) (fun d => d)
      | .lost => do
        eMod (fun d => put (d.logLost w.chamber l false)
          { sc with lines := sc.lines + 1024, poisoned := sc.poisoned + 1024, pages := sc.pages ++ [l / 1024] })
        return 0
      | _ =>
        match (List.range 1024).find? (fun i => d.lineServing (l + i)) with
        | some i => eBlock (.line (l + i)) (fun d => d)
        | none =>
          eMod (fun d => let (d, sc) := d.scrubPage sc (l / 1024) cva w.chamber t2 errs bad; put d sc)
          return 0

/-- Writes the summary record of a SCRUB and ends it (R629). -/
def Dev.scrubEnd (d : Dev) (id : Nat) (o : Op) : Dev :=
  let sc := (kget d.err.scrubs id).getD emptyScrub
  d.turn id o (eWrite (opWho id o) (o.f 32 8) (scrubRecord sc (d.gt - o.admitted))) (fun _ o d =>
    let d := { d with err.scrubs := kdel d.err.scrubs id }
    let o := { o with poison := o.poison || d.anyPoison sc.pages }
    d.finishOp id o { status := sc.status, count := if 0x20 ≤ sc.status then o.lines else sc.lines, result := sc.uncorr })

/-- The pages of a SCRUB from part `o.part` on, then its summary. -/
def Dev.scrubLoop (d : Dev) (id : Nat) (o : Op) (errs : List LineErr) (bad : List Nat) : Nat → Dev
  | 0 => d.scrubEnd id o
  | fuel + 1 =>
    let sc := (kget d.err.scrubs id).getD emptyScrub
    if sc.status ≠ 0 ∨ o.f 24 8 / 65536 ≤ o.part then d.scrubEnd id o
    else d.turn id o (eScrubPage (opWho id o) id (o.f 16 8 + o.part * 65536) (bit (o.f 40 1) 0) errs bad) (fun st o d =>
      let sc := (kget d.err.scrubs id).getD emptyScrub
      let d := { d with err.scrubs := kput d.err.scrubs id { sc with status := st } }
      let o := { o with part := o.part + 1 }
      (d.setOp id o).scrubLoop id o errs bad fuel)

/-- SCRUB (R626-R629); `errs` are the errors that the decoders meet in stored lines, `bad` the 4 KiB cartridge blocks with a
media error. -/
def Dev.scrub (d : Dev) (id : Nat) (errs : List LineErr) (bad : List Nat) : Dev :=
  d.runOp id 0x10 (fun o d =>
    let n := o.f 24 8
    if o.f 16 8 % 65536 ≠ 0 ∨ n % 65536 ≠ 0 ∨ n < 65536 ∨ 2 ^ 40 < n ∨ o.f 32 8 % 64 ≠ 0 ∨ o.f 40 1 / 2 ≠ 0 ∨ o.f 41 23 ≠ 0 ∨
        2 ^ 52 < o.f 16 8 + n ∨ 2 ^ 52 ≤ o.f 32 8 then
      d.finishOp id o { status := 0x7F }
    else d.scrubLoop id o errs bad (n / 65536 + 1))

/-- ERR_SCRUB_CTL START (R630): the pass over local offsets, whole; how long it takes is free (log 31). -/
def Dev.scrubStart (d : Dev) (t2 : Bool) (errs : List LineErr) (bad : List Nat) : Dev :=
  let d := d.wb .ERR_SCRUB_CTL_T2 0 t2
  /- with no Bond active no pool memory is served (01 R33) -/
  if d.rb .ERR_SCRUB_CTL_BUSY || !d.active then d
  else
    let base := d.rf .ERR_SCRUB_RANGE_BASE
    let (d, sc) := (List.range (d.rf .ERR_SCRUB_RANGE_PAGES)).foldl (fun x i =>
      x.1.scrubPage x.2 (base + i) ((base + i) * 65536) 16 t2 errs bad) (d, emptyScrub)
    let time := Config.free d.fresh
    (d.drawn).wf .ERR_SCRUB_REP_RECORD 0 (ofLE (scrubRecord sc time))

/-- ERR_LOG_FREE (R645). -/
def Dev.logFree (d : Dev) (all : Bool) (slot : Nat) : Dev :=
  { d with err.log := if all then [] else kdel d.err.log slot }

/-- A telemetry entry is written, at its PERIOD (R643). -/
def Dev.telemetryTick (d : Dev) : Dev :=
  if d.rb .ERR_TLM_CFG_EN then
    let t := d.err.tlm
    let e := leBytes 8 d.gt ++ leBytes 8 t.t0r ++ leBytes 8 t.t0w ++ leBytes 8 t.t1r ++ leBytes 8 t.cells ++ leBytes 8 t.busy ++
      leBytes 8 t.recs ++ leBytes 8 t.logs
    let k := d.rf .ERR_TLM_PTR_TAIL % 16384
    let z : Tlm := { t0r := 0, t0w := 0, t1r := 0, cells := 0, busy := 0, recs := 0, logs := 0 }
    let d := { d with err.tlm := z, err.tlmRing := kput d.err.tlmRing k e }
    let d := d.inc .ERR_TLM_PTR_TAIL
    if d.rb .ERR_TLM_CFG_STREAM then d.send (.telemetry e) else d
  else d

/-- The oldest background request of a unit has waited DEFER (R632): the unit now gives background work 1 of every 16
slots. -/
def Dev.backgroundDefer (d : Dev) (cls unit : Nat) : Dev :=
  if d.err.bg.contains (cls, unit) then d else { d with err.bg := d.err.bg ++ [(cls, unit)] }

/-- A refresh of a stack, or of channel `unit - 16` (R631). -/
def Dev.hbmRefresh (d : Dev) (unit : Nat) : Dev :=
  { d.send (.refresh unit) with err.refresh := kput d.err.refresh unit (sget 0 d.err.refresh unit + 1) }

/-- A periodic calibration of a stack, or of channel `unit - 16` (R631). -/
def Dev.calibration (d : Dev) (unit : Nat) : Dev :=
  { d.send (.refresh (64 + unit)) with err.refresh := kput d.err.refresh (64 + unit) (sget 0 d.err.refresh (64 + unit) + 1) }

end Sys2Proof.Machine
end

