-- ==== Sys2Proof/Machine/Flow.lean ====
section
/-!
DEFINITION. The Flowstone block format: check values, static tables, the codecs EXPG and ZRUN, blocks and streams
(10 R391-R408, R416-R419).
-/

namespace Sys2Proof.Machine

/-! ### Check values (R397) -/

/-- One bit step of the reflected CRC-32C register. -/
def crcStep (c : Nat) : Nat := if c % 2 = 1 then Nat.xor (c / 2) 0x82F63B78 else c / 2

/-- CRC-32C of bytes (R397). -/
def crc32c (l : Bytes) : Nat :=
  Nat.xor (l.foldl (fun c b => crcStep (crcStep (crcStep (crcStep (crcStep (crcStep (crcStep (crcStep (Nat.xor c b.toNat)))))))))
    0xFFFFFFFF) 0xFFFFFFFF

/-! ### Static tables (R402, R407, R408) -/

/-- Element bytes, exponent bits and rest bits of an EXPG format (R400). -/
def expgFmt (fmt : Nat) : Option (Nat × Nat × Nat) :=
  match fmt with
  | 1 => some (2, 8, 8)
  | 2 => some (2, 5, 11)
  | 3 | 5 => some (1, 4, 4)
  | 4 | 6 => some (1, 5, 3)
  | _ => none

/-- Element bytes of ZRUN (R403). -/
def zrunBytes (fmt : Nat) : Nat := if fmt = 0 ∨ fmt = 0xC then 4 else if fmt = 1 ∨ fmt = 2 then 2 else 1

/-- Code length of an exponent value in a table (R407). -/
def tblLen (t : Bytes) (s : Nat) : Nat := field t (16 + s / 2) 1 / (if s % 2 = 0 then 1 else 16) % 16

/-- Exponent values of a table's format. -/
def tblSyms (t : Bytes) : Nat := match expgFmt (field t 0 1 % 16) with | some (_, w, _) => 2 ^ w | none => 0

/-- First codeword of length `b` (R402). -/
def tblFirst (t : Bytes) : Nat → Nat
  | 0 => 0
  | b + 1 => 2 * (tblFirst t b + if b = 0 then 0 else ((List.range (tblSyms t)).filter (fun s => tblLen t s == b)).length)

/-- The codes of a table: exponent value, length, codeword (R402). -/
def tblCodes (t : Bytes) : List (Nat × Nat × Nat) :=
  ((List.range (tblSyms t)).filter (fun s => tblLen t s != 0)).map (fun s =>
    (s, tblLen t s, tblFirst t (tblLen t s) + ((List.range s).filter (fun u => tblLen t u == tblLen t s)).length))

/-- A table is valid (R408); one with one code is so only if that code has length 1 (DEDUCED, log 150). -/
def tblValid (t : Bytes) : Bool :=
  let ls := (List.range 256).map (tblLen t)
  field t 252 4 == crc32c (t.take 252) && field t 0 1 / 16 == 0 && field t 1 1 == 0 && field t 3 13 == 0 && field t 144 108 == 0 &&
    (expgFmt (field t 0 1 % 16)).isSome && (ls.drop (tblSyms t)).all (fun n => n == 0) && ls.any (fun n => n != 0) &&
    decide ((ls.map (fun n => if n = 0 then 0 else 2 ^ (15 - n))).sum ≤ 2 ^ 15) &&
    (match ls.filter (fun n => n != 0) with | [n] => n == 1 | _ => true)

/-! ### Sub-streams (R398-R403) -/

/-- The bits of bytes, bit 0 of byte 0 first (R399). -/
def bitsOf (l : Bytes) : List Bool := l.flatMap (fun b => (List.range 8).map (fun i => bit b.toNat i))

/-- The number that bits spell, least significant first. -/
def numOf : List Bool → Nat
  | [] => 0
  | b :: l => b2n b + 2 * numOf l

/-- Bytes of bits, filled with 0 to a multiple of 8 bytes. -/
def bytesOf (l : List Bool) : Bytes := leBytes ((l.length + 63) / 64 * 8) (numOf l)

/-- Reads one prefix code, most significant code bit first: the exponent value and the bits left. -/
def readCode (codes : List (Nat × Nat × Nat)) (len code : Nat) : List Bool → Option (Nat × List Bool)
  | [] => none
  | b :: l =>
    let code := 2 * code + b2n b
    match codes.find? (fun x => x.2.1 == len + 1 && x.2.2 == code) with
    | some x => some (x.1, l)
    | none => readCode codes (len + 1) code l

/-- Reads `n` prefix codes. -/
def readCodes (codes : List (Nat × Nat × Nat)) : Nat → List Bool → Option (List Nat × List Bool)
  | 0, l => some ([], l)
  | n + 1, l => do
    let (s, l) ← readCode codes 0 0 l
    let (ss, l) ← readCodes codes n l
    return (s :: ss, l)

/-- Expands an EXPG sub-stream of `len` bytes (R400, R401); none when it is damaged. -/
def expgDecode (t stored : Bytes) (len : Nat) : Option Bytes := do
  let (eb, w, r) ← expgFmt (field t 0 1 % 16)
  let n := len / eb
  let bs := bitsOf stored
  if bs.length < n * r then none
  let rests := (List.range n).map (fun i => numOf ((bs.drop (i * r)).take r))
  let (es, left) ← readCodes (tblCodes t) n (bs.drop (n * r))
  if left.any (fun b => b) then none
  return (rests.zip es).flatMap (fun x =>
    leBytes eb (x.1 / 2 ^ (r - 1) * 2 ^ (w + r - 1) + x.2 * 2 ^ (r - 1) + x.1 % 2 ^ (r - 1)))

/-- The coded EXPG sub-stream of bytes, none when an exponent has no code (R401, R406). -/
def expgEncode (t raw : Bytes) : Option Bytes := do
  let (eb, w, r) ← expgFmt (field t 0 1 % 16)
  let xs := (List.range (raw.length / eb)).map (fun i => field raw (i * eb) eb)
  let codes := tblCodes t
  let rest := xs.flatMap (fun x =>
    let v := x / 2 ^ (w + r - 1) * 2 ^ (r - 1) + x % 2 ^ (r - 1)
    (List.range r).map (fun i => bit v i))
  let cs ← xs.mapM (fun x => codes.find? (fun c => c.1 == x / 2 ^ (r - 1) % 2 ^ w))
  return bytesOf (rest ++ cs.flatMap (fun c => (List.range c.2.1).map (fun i => bit c.2.2 (c.2.1 - 1 - i))))

/-- Expands a ZRUN sub-stream of `len` bytes (R403). -/
def zrunDecode (g : Nat) (stored : Bytes) (len : Nat) : Option Bytes :=
  let n := len / g
  let gmap := field stored 0 2
  let groups := (List.range 16).filter (fun i => bit gmap i)
  let masks := groups.mapIdx (fun k i => (i, field stored (2 + 2 * k) 2))
  let live := masks.flatMap (fun x => ((List.range 16).filter (fun k => bit x.2 k)).map (fun k => 16 * x.1 + k))
  let used := 2 + 2 * groups.length + g * live.length
  if stored.length ≠ (used + 7) / 8 * 8 ∨ (groups.any (fun i => decide ((n + 15) / 16 ≤ i))) = true ∨
      (live.any (fun k => decide (n ≤ k))) = true ∨ ((stored.drop used).any (fun b => b != 0)) = true then none
  else
    let vals := live.mapIdx (fun j k => (k, (stored.drop (2 + 2 * groups.length + g * j)).take g))
    some ((List.range n).flatMap (fun k => match vals.find? (fun v => v.1 == k) with | some v => v.2 | none => zeros g))

/-- The coded ZRUN sub-stream of bytes (R403). -/
def zrunEncode (g : Nat) (raw : Bytes) : Bytes :=
  let n := raw.length / g
  let el (k : Nat) : Bytes := (raw.drop (k * g)).take g
  let live (k : Nat) : Bool := decide (k < n) && (el k).any (fun b => b != 0)
  let groups := (List.range 16).filter (fun i => (List.range 16).any (fun k => live (16 * i + k)))
  let out := leBytes 2 (maskOf groups) ++
    groups.flatMap (fun i => leBytes 2 (maskOf ((List.range 16).filter (fun k => live (16 * i + k))))) ++
    ((List.range n).filter live).flatMap el
  padTo ((out.length + 7) / 8 * 8) out

/-! ### Blocks (R393-R396, R406, R419) -/

/-- What a block expands to. -/
inductive BlkOut where
  /-- damaged in its header (R419) -/
  | header
  /-- its table does not serve it -/
  | table
  /-- damaged in a sub-stream or CHECK -/
  | data
  | ok (bytes : Bytes)
deriving DecidableEq, Repr

/-- Length of sub-stream `i` of a block of `ulen` bytes. -/
def subLen (ulen i : Nat) : Nat := min 256 (ulen - 256 * i)

/-- UNITS stored by a SUB byte (R394). -/
def subUnits (s : Nat) : Nat := if bit s 6 then 0 else s % 32 + 1

/-- ULEN and CLEN8 of a header (R393). -/
def blkUlen (h : Bytes) : Nat := field h 4 3 % 4096 + 1
def blkClen (h : Bytes) : Nat := bits (field h 4 3) 12 10

/-- The header meets R393 to R395, and ULEN is the one implied, when one is. -/
def headerOk (h : Bytes) (want : Option Nat) : Bool :=
  let codec := field h 1 1 / 16
  let fmt := field h 2 1 % 16
  let ulen := blkUlen h
  let n := (ulen + 255) / 256
  let subs := (List.range 16).map (fun i => field h (8 + i) 1)
  field h 0 1 == 0xF5 && field h 1 1 % 16 == 1 && decide (codec ≤ 2) && field h 2 1 / 16 == 0 && decide (fmt ≤ 0xC) &&
    field h 3 1 / 64 == 0 && field h 6 1 / 64 == 0 && (codec == 1 || (field h 3 1 == 0 && field h 7 1 == 0)) &&
    field h 28 4 == crc32c (h.take 28) &&
    (match codec with
     | 1 => (match expgFmt fmt with | some (eb, _, _) => ulen % eb == 0 | none => false)
     | 2 => ulen % zrunBytes fmt == 0
     | _ => true) &&
    (subs.drop n).all (fun s => s == 0) &&
    (subs.take n).all (fun s => !bit s 7 && (!bit s 6 || s == 0x40) && (codec != 0 || bit s 5 || bit s 6)) &&
    blkClen h == 4 + ((subs.take n).map subUnits).sum &&
    (match want with | some u => u == ulen | none => true)

/-- Expands the block that begins `b`; `tbl` is the table store (R419). -/
def blkDecode (tbl : Nat → Option Bytes) (b : Bytes) (want : Option Nat) : BlkOut :=
  let h := b.take 32
  if !headerOk h want || decide (b.length < 8 * blkClen h) then .header
  else
    let codec := field h 1 1 / 16
    let fmt := field h 2 1 % 16
    let ulen := blkUlen h
    let t := tbl (field h 3 1)
    let tblOk := codec != 1 || (match t with
      | some t => field t 2 1 == field h 7 1 &&
          (match expgFmt (field t 0 1 % 16), expgFmt fmt with | some (_, w, _), some (_, w', _) => w == w' | _, _ => false)
      | none => false)
    if !tblOk then .table
    else
      /- the element split is FMT's; the code lengths are the table's -/
      let tt := match t with | some t => BitVec.ofNat 8 fmt :: t.drop 1 | none => []
      let sub (i : Nat) (at_ : Nat) : Option Bytes :=
        let s := field h (8 + i) 1
        let len := subLen ulen i
        let stored := (b.drop at_).take (8 * subUnits s)
        if bit s 6 then some (zeros len)
        else if bit s 5 || codec == 0 then
          if stored.length < len ∨ (stored.drop len).any (fun x => x != 0) then none else some (stored.take len)
        else if codec = 1 then expgDecode tt stored len
        else zrunDecode (zrunBytes fmt) stored len
      let offs := (List.range ((ulen + 255) / 256)).map (fun i =>
        (i, 32 + 8 * ((List.range i).map (fun j => subUnits (field h (8 + j) 1))).sum))
      match offs.mapM (fun x => sub x.1 x.2) with
      | none => .data
      | some parts => if crc32c parts.flatten = field h 24 4 then .ok parts.flatten else .data

/-- How a stream codec stores one sub-stream: its SUB byte and bytes (R406). -/
def subEncode (codec fmt : Nat) (t : Option Bytes) (raw : Bytes) : Nat × Bytes :=
  let coded : Option Bytes := match codec, t with
    | 1, some t => expgEncode (BitVec.ofNat 8 fmt :: t.drop 1) raw
    | 2, _ => some (zrunEncode (zrunBytes fmt) raw)
    | _, _ => none
  let units := (raw.length + 7) / 8
  let asRaw := (32 + units - 1, padTo (8 * units) raw)
  if raw.all (fun b => b == 0) then (0x40, [])
  else match coded with
    | some c => if c.length / 8 < units then (c.length / 8 - 1, c) else asRaw
    | none => asRaw

/-- The block of bytes under one codec (R393, R406). -/
def blkEncode (codec fmt ti : Nat) (t : Option Bytes) (raw : Bytes) : Bytes :=
  let n := (raw.length + 255) / 256
  let subs := (List.range n).map (fun i => subEncode codec fmt t ((raw.drop (256 * i)).take 256))
  let body := (subs.map Prod.snd).flatten
  let clen := 4 + body.length / 8
  let gen := match codec, t with | 1, some t => field t 2 1 | _, _ => 0
  let head := leBytes 1 0xF5 ++ leBytes 1 (1 + 16 * codec) ++ leBytes 1 fmt ++ leBytes 1 (if codec = 1 then ti else 0) ++
    leBytes 3 (raw.length - 1 + clen * 4096) ++ leBytes 1 gen ++ padTo 16 (subs.map (fun s => BitVec.ofNat 8 s.1)) ++
    leBytes 4 (crc32c raw)
  head ++ leBytes 4 (crc32c head) ++ body

/-- EXPG serves the format with the table (R414). -/
def expgUsable (fmt : Nat) (t : Option Bytes) : Bool :=
  match expgFmt fmt, t with
  | some (_, w, _), some t => (match expgFmt (field t 0 1 % 16) with | some (_, w', _) => w == w' | none => false)
  | _, _ => false

/-- The block under AUTO, or the codec named (R406, R413). -/
def blkEncodeAs (codec fmt ti : Nat) (t : Option Bytes) (raw : Bytes) : Bytes :=
  if codec = 7 then
    let eb := match expgFmt fmt with | some (eb, _, _) => eb | none => 1
    let tries := [blkEncode 0 fmt ti t raw] ++
      (if expgUsable fmt t && raw.length % eb == 0 then [blkEncode 1 fmt ti t raw] else []) ++
      (if raw.length % zrunBytes fmt = 0 then [blkEncode 2 fmt ti t raw] else [])
    tries.foldl (fun b x => if b.isEmpty || decide (x.length < b.length) then x else b) []
  else blkEncode codec fmt ti t raw

/-! ### The Chamber's table store (R407, R411) -/

/-- A loaded table of a Chamber. -/
def Dev.table (d : Dev) (c i : Nat) : Option Bytes := kget d.flow (c * 64 + i)

/-- Empties the table store of a Chamber (R411). -/
def Dev.dropTables (d : Dev) (c : Nat) : Dev :=
  ({ d with flow := d.flow.filter (fun e => e.1 / 64 != c) }).wf .FLW_TBL_VALID_VALID c 0

/-- Counts a damaged block of a Chamber (R425). -/
def Dev.countBlk (d : Dev) (c : Nat) : BlkOut → Dev
  | .header => d.bump .FLW_CNT_HDR c
  | .table => d.bump .FLW_CNT_TABLE c
  | .data => d.bump .FLW_CNT_DATA c
  | .ok _ => d

end Sys2Proof.Machine
end

