-- ==== Sys2Proof/Machine/Codecs.lean ====
section
/-!
DEFINITION. The descriptors of the stream codecs: TABLES, COMPRESS, EXPAND (10 R409-R415, R419-R421).
-/

namespace Sys2Proof.Machine

/-- Two byte ranges overlap. -/
def overlap (a n b m : Nat) : Bool := decide (a < b + m ∧ b < a + n)

/-! ### TABLES (R409, R410) -/

/-- Reads the tables of a load, one after another; poison ends the descriptor POISON_CONSUMED. -/
def eTables (w : Who) (src : Nat) : Nat → Eng (List Bytes)
  | 0 => return []
  | n + 1 => do
    let (t, p) ← eRead w src 256
    if p then eFail 0x30
    return t :: (← eTables w (src + 256) n)

/-- TABLES: reads and checks the load; a valid one waits for its installation. -/
def Dev.tables (d : Dev) (id : Nat) : Dev :=
  d.runOp id 0x1A (fun o d =>
    let first := o.f 24 1
    let n := o.f 25 1 + 1
    if o.f 16 8 % 256 ≠ 0 ∨ 2 ^ 52 < o.f 16 8 + 256 * n ∨ 64 ≤ first ∨ 64 < n ∨ 64 < first + n ∨ o.f 26 38 ≠ 0 then
      d.finishOp id o { status := 0x7F }
    else d.turn id o (eTables (opWhoOf id o 96 none) (o.f 16 8) n) (fun ts o d =>
      match ts.findIdx? (fun t => !tblValid t) with
      | some k => d.finishOp id o { status := 0x7F, result := k }
      | none => { d.setOp id { o with phase := .waiting } with flowIn := kput d.flowIn id ts }))

/-- Every operation of the Chamber admitted before a TABLES descriptor has completed: its tables are installed (R410). None of its
descriptors has been admitted since. -/
def Dev.tablesInstall (d : Dev) (id : Nat) : Dev :=
  match kget d.ops id, kget d.flowIn id with
  | some o, some ts =>
    let c := o.chamber
    if (d.opsOf c).any (fun e => if e.2.reply.isSome then decide (e.1 < id) else e.1 != id && !e.2.unfetched) then d
    else
      let first := o.f 24 1
      let flow := (ts.mapIdx (fun i t => (c * 64 + first + i, t))).foldl (fun m e => kput m e.1 e.2) d.flow
      let v := d.rf .FLW_TBL_VALID_VALID c ||| maskOf ((List.range ts.length).map (fun i => first + i))
      let d := { d with flow := flow, flowIn := kdel d.flowIn id }
      (d.wf .FLW_TBL_VALID_VALID c v).finishOp id o {}
  | _, _ => d

/-! ### COMPRESS (R413, R414) -/

/-- Bytes that a stream may take (R396). -/
def streamBound (n : Nat) : Nat := 32 * ((n + 4095) / 4096) + 8 * ((n + 7) / 8)

/-- The body of a COMPRESS is refused at admission (R414). -/
def Dev.compressBad (d : Dev) (o : Op) : Bool :=
  let src := o.f 16 8
  let dst := o.f 24 8
  let n := o.f 32 8
  let fmt := o.f 40 1 % 16
  let codec := o.f 40 1 / 16
  let t := d.table o.chamber (o.f 41 1)
  let ix := o.f 48 8
  let blocks := (n + 4095) / 4096
  o.f 41 1 / 64 != 0 || o.f 42 6 != 0 || o.f 56 8 != 0 || !decide (1 ≤ n ∧ n ≤ 2 ^ 40) || dst % 8 != 0 || ix % 8 != 0 ||
    decide (2 ^ 52 < src + n ∨ 2 ^ 52 < dst + streamBound n ∨ 2 ^ 52 < ix + 8 * blocks) ||
    overlap src n dst (streamBound n) || (ix != 0 && (overlap src n ix (8 * blocks) || overlap dst (streamBound n) ix (8 * blocks))) ||
    decide (0xD ≤ fmt) || !(decide (codec ≤ 2) || codec == 7) ||
    (codec == 1 && (!expgUsable fmt t || (match expgFmt fmt with | some (eb, _, _) => n % eb != 0 | none => true))) ||
    (codec == 2 && n % zrunBytes fmt != 0)

/-- Compresses one block and writes it, and its index entry (R413, R421): the bytes it takes. -/
def eCompress (w : Who) (src len dst ix codec fmt ti off : Nat) (t : Option Bytes) : Eng Nat := do
  let (raw, p) ← eRead w src len
  let b := blkEncodeAs codec fmt ti t raw
  if p then eMod (fun d => d.bump .FLW_CNT_POISON_IN w.chamber)
  eWriteMarked w (dst + off) b (fun _ => p)
  if ix ≠ 0 then eWrite w ix (leBytes 8 off)
  return b.length

/-- The blocks of a COMPRESS from block `o.part` on, `o.acc` stream bytes being written. -/
def Dev.compressLoop (d : Dev) (id : Nat) (o : Op) : Nat → Dev
  | 0 => d
  | fuel + 1 =>
    let n := o.f 32 8
    let k := o.part
    let ix := o.f 48 8
    if n ≤ 4096 * k then d.finishOp id o { count := o.acc, result := k }
    else
      let m := eCompress (opWhoOf id o 96 none) (o.f 16 8 + 4096 * k) (min 4096 (n - 4096 * k)) (o.f 24 8)
        (if ix = 0 then 0 else ix + 8 * k) (o.f 40 1 / 16) (o.f 40 1 % 16) (o.f 41 1) o.acc (d.table o.chamber (o.f 41 1))
      d.turn id o m (fun b o d =>
        let o := { o with part := k + 1, acc := o.acc + b }
        (d.setOp id o).compressLoop id o fuel)

/-- COMPRESS (R413, R414). -/
def Dev.compress (d : Dev) (id : Nat) : Dev :=
  d.runOp id 0x18 (fun o d =>
    if o.part = 0 && d.compressBad o then d.finishOp id o { status := 0x7F }
    else d.compressLoop id o (o.f 32 8 / 4096 + 3))

/-! ### EXPAND (R415, R419-R421) -/

/-- What one block of an EXPAND gave: bytes it takes in the stream when that is known, whether it failed. -/
structure Expanded where
  clen : Option Nat
  failed : Bool
deriving DecidableEq, Repr

/-- Expands one block to its output range (R415, R420, R421). `at_` is where it starts, none when it cannot be located. -/
def eExpand (w : Who) (tbl : Nat → Option Bytes) (at_ : Option Nat) (dst len : Nat) : Eng Expanded := do
  let lose : Eng Unit := eWriteMarked w dst (zeros len) (fun _ => true)
  match at_ with
  | none => do
    lose
    return { clen := none, failed := true }
  | some a =>
    let (h, p) ← eRead w a 32
    if p then
      eMod (fun d => d.bump .FLW_CNT_POISON_IN w.chamber)
      lose
      return { clen := none, failed := false }
    let known := headerOk h (some len)
    let body ← if known then eRead w (a + 32) (8 * blkClen h - 32) else pure ([], false)
    if body.2 then
      eMod (fun d => d.bump .FLW_CNT_POISON_IN w.chamber)
      lose
      return { clen := some (8 * blkClen h), failed := false }
    match blkDecode tbl (h ++ body.1) (some len) with
    | .ok b => do
      eWrite w dst b
      return { clen := some (8 * blkClen h), failed := false }
    | r => do
      eMod (fun d => d.countBlk w.chamber r)
      lose
      return { clen := if known then some (8 * blkClen h) else none, failed := true }

/-- Where block `k` of an EXPAND starts: from the index, or after the blocks before it; `o.acc` is one more than the offset
reached, 0 when it is not known. -/
def eBlockAt (w : Who) (o : Op) (k : Nat) : Eng (Option Nat) := do
  let ix := o.f 48 8
  if ix ≠ 0 then
    let off ← eNum w (ix + 8 * k) 8
    return some ((o.f 16 8 + off) % 2 ^ 52)
  if k = 0 then return some (o.f 16 8)
  return if o.acc = 0 then none else some (o.f 16 8 + o.acc - 1)

/-- The blocks of an EXPAND from block `o.part` on; `o.acc2` blocks have failed, `o.acc3` is the first of them. -/
def Dev.expandLoop (d : Dev) (id : Nat) (o : Op) : Nat → Dev
  | 0 => d
  | fuel + 1 =>
    let n := o.f 32 8
    let k := o.part
    let c := o.chamber
    let w := opWhoOf id o 96 none
    if n ≤ 4096 * k then
      if o.acc2 = 0 then d.finishOp id o { count := n, result := k }
      else d.finishOp id o { status := 0x31, count := o.acc2, result := o.acc3 }
    else
      d.turn id o (do eExpand w (d.table c) (← eBlockAt w o k) (o.f 24 8 + 4096 * k) (min 4096 (n - 4096 * k))) (fun r o d =>
        let off := if k = 0 then 1 else o.acc
        let o := { o with
          part := k + 1
          acc := match r.clen with | some l => if off = 0 then 0 else off + l | none => 0
          acc2 := o.acc2 + b2n r.failed
          acc3 := if r.failed && o.acc2 == 0 then k else o.acc3 }
        (d.setOp id o).expandLoop id o fuel)

/-- EXPAND (R415). -/
def Dev.expand (d : Dev) (id : Nat) : Dev :=
  d.runOp id 0x19 (fun o d =>
    let src := o.f 16 8
    let dst := o.f 24 8
    let n := o.f 32 8
    let ix := o.f 48 8
    let blocks := (n + 4095) / 4096
    if o.part = 0 ∧ (o.f 40 8 ≠ 0 ∨ o.f 56 8 ≠ 0 ∨ n = 0 ∨ 2 ^ 40 < n ∨ src % 8 ≠ 0 ∨ dst % 64 ≠ 0 ∨ ix % 8 ≠ 0 ∨
        2 ^ 52 ≤ src ∨ 2 ^ 52 < dst + n ∨ 2 ^ 52 < ix + 8 * blocks ∨
        overlap src (streamBound n) dst n = true ∨
        (ix ≠ 0 ∧ (overlap src (streamBound n) ix (8 * blocks) = true ∨ overlap dst n ix (8 * blocks) = true))) then
      d.finishOp id o { status := 0x7F }
    else d.expandLoop id o (n / 4096 + 3))

end Sys2Proof.Machine
end

