-- ==== Sys2Proof/Machine/Num.lean ====
section
/-!
DEFINITION. The numeric formats of the Masons and their arithmetic: elements of rows, conversions, sums whose order is not
fixed, and the approximated functions within their bounds (09 R373-R378).
`n` is the number of a free draw, `k` the place within it.
-/

namespace Sys2Proof.Machine

/-- Bits per element of a format code (R373). -/
def fmtBits (f : Nat) : Nat :=
  if f = 0 ∨ f = 0xC then 32 else if f = 1 ∨ f = 2 then 16 else if f = 7 ∨ f = 8 then 6 else if f = 9 ∨ f = 0xB then 4 else 8

/-- MX formats (R373). -/
def isMx (f : Nat) : Bool := decide (5 ≤ f ∧ f ≤ 9)

/-- Integer formats (R373). -/
def isInt (f : Nat) : Bool := decide (0xA ≤ f ∧ f ≤ 0xC)

/-- The floating-point format of a code, its element format for MX (R373). -/
def fmtOf (f : Nat) : Fmt :=
  match f with
  | 0 => fp32 | 1 => bf16 | 2 => fp16 | 3 => e4m3 | 5 => e4m3 | 4 => e5m2 | 6 => e5m2 | 7 => e3m2 | 8 => e2m3 | _ => e2m1

/-- Bytes of a row of `n` elements. -/
def rowBytes (f n : Nat) : Nat := (n * fmtBits f + 7) / 8

/-- Element `j` of a row of bytes (R374). -/
def elemAt (f : Nat) (row : Bytes) (j : Nat) : Nat :=
  let b := fmtBits f
  bits (field row (j * b / 8) ((b + 14) / 8)) (j * b % 8) b

/-- A row of elements as bytes (R374). -/
def rowOf (f : Nat) (l : List Nat) : Bytes :=
  let b := fmtBits f
  leBytes (rowBytes f l.length) ((l.mapIdx (fun j x => x % 2 ^ b * 2 ^ (j * b))).sum)

/-- The value of an element. -/
def valOf (f x : Nat) : FV := if isInt f then intF (toInt (fmtBits f) x) else decodeF (fmtOf f) x

/-- A value times a power of two. -/
def scaleF (e : Int) : FV → FV
  | .fin s m k => .fin s m (k + e)
  | v => v

/-- An element times its block's E8M0 scale; the scale 0xFF is NaN (R366, R374). -/
def mxVal (f x scale : Nat) : FV := if scale = 255 then .nan else scaleF ((scale : Int) - 127) (valOf f x)

/-- A value rounded to FP32. -/
def round32 (v : FV) : FV := decodeF fp32 (encodeF fp32 false v)

/-- A NaN of an IEEE format whose sign and payload nothing fixes. -/
def nanFree (f : Fmt) (n k : Nat) : Nat :=
  (Config.free2 n k % 2) * 2 ^ (f.eb + f.mb) + f.qnan + Config.free2 n (k + 1) % 2 ^ (f.mb - 1)

/-- An FP32 result of the vector unit (R375). -/
def out32 (n k : Nat) (v : FV) : Nat := match v with | .nan => nanFree fp32 n k | v => encodeF fp32 false v

/-! ### Sums (R375, R378) -/

/-- The sum of values in groups and in an order that nothing fixes: again and again two of them are added, and the result
is rounded to FP32 or kept exact within its group. -/
def sumFree (n : Nat) : Nat → Nat → List FV → FV
  | _, _, [] => .fin false 0 0
  | _, _, [v] => v
  | 0, _, v :: _ => v
  | fuel + 1, k, l =>
    let i := Config.free2 n k % l.length
    let a := l.getD i .nan
    let l := l.eraseIdx i
    let j := Config.free2 n (k + 1) % l.length
    let s := addF a (l.getD j .nan)
    sumFree n fuel (k + 3) ((if Config.free2 n (k + 2) % 2 = 0 then round32 s else s) :: l.eraseIdx j)

/-- A sum as an FP-class slot keeps it: NaN is 0x7FC0_0000 (R375). -/
def sumAcc (n k : Nat) (l : List FV) : Nat := encodeF fp32 false (sumFree n l.length k l)

/-- The sum of values by additions of the vector unit in an order that nothing fixes (R375): each addition is rounded to FP32; of its
operands one at most is a product not rounded yet, as in a fused multiply-add. -/
def sumVec (n : Nat) : Nat → Nat → List FV → FV
  | _, _, [] => .fin false 0 0
  | _, _, [v] => round32 v
  | 0, _, v :: _ => round32 v
  | fuel + 1, k, l =>
    let i := Config.free2 n k % l.length
    let a := l.getD i .nan
    let l := l.eraseIdx i
    let j := Config.free2 n (k + 1) % l.length
    let b := l.getD j .nan
    let a' := if Config.free2 n (k + 2) % 3 = 1 then a else round32 a
    let b' := if Config.free2 n (k + 2) % 3 = 2 then b else round32 b
    sumVec n fuel (k + 3) (round32 (addF a' b') :: l.eraseIdx j)

/-- A product that may be rounded before it is added. -/
def maybe32 (n k : Nat) (v : FV) : FV := if Config.free2 n k % 2 = 0 then round32 v else v

/-! ### Minimum and maximum (R375) -/

/-- The larger of two values as IEEE 754 has it; of a NaN and a number, and of two zeros, either may be given (log 32). -/
def maxFree (n k : Nat) (a b : FV) : FV :=
  match a, b with
  | .nan, x => if Config.free2 n k % 2 = 0 then .nan else x
  | x, .nan => if Config.free2 n k % 2 = 0 then .nan else x
  | a, b => if ltF a b then b else if ltF b a then a else if Config.free2 n k % 2 = 0 then a else b

/-- The smaller of two values. -/
def minFree (n k : Nat) (a b : FV) : FV := negF (maxFree n k (negF a) (negF b))

/-! ### Conversions (R376) -/

/-- A value rounded to an integer, to nearest even or toward zero. -/
def roundInt (rz : Bool) : FV → Int
  | .fin neg m e =>
    let a : Nat := if 0 ≤ e then m * 2 ^ e.toNat else if rz then m / 2 ^ (-e).toNat else rneShift m (-e).toNat
    if neg then -(a : Int) else a
  | _ => 0

/-- Rounds toward zero to a float format; overflow as `encodeF` has it. -/
def encodeRZ (f : Fmt) (sat : Bool) (v : FV) : Nat :=
  match v with
  | .fin neg m e =>
    if m = 0 then encodeF f sat v
    else
      let q : Int := max (e + Nat.log2 m - f.mb) (1 - (f.bias : Int) - f.mb)
      encodeF f sat (if q ≤ e then v else .fin neg (m / 2 ^ (q - e).toNat) q)
  | v => encodeF f sat v

/-- A magnitude that a format without NaN cannot hold. -/
def tooBig (f : Fmt) (rz : Bool) (v : FV) : Bool :=
  match v with
  | .nan | .inf _ => true
  | v =>
    let wide : Fmt := { f with eb := f.eb + 6, bias := f.bias }
    let x := if rz then encodeRZ wide false v else encodeF wide false v
    decide (f.limit ≤ x % 2 ^ (wide.eb + wide.mb))

/-- A conversion to a format (R376). An overflow without SAT in an MX format is NaN. Values that R376 does not give are free: NaN codes, an INT32 out of range without
SAT, NaN as INT32, and overflow without SAT in a format that has no NaN (log 32). -/
def conv (n k f : Nat) (sat rz : Bool) (v : FV) : Nat :=
  if isInt f then
    let w := fmtBits f
    let lo : Int := -(2 ^ (w - 1))
    let hi : Int := 2 ^ (w - 1) - 1
    let top (neg : Bool) : Nat := if f = 0xC ∧ !sat then Config.free2 n k % 2 ^ 32 else ofInt w (if neg then lo else hi)
    match v with
    | .nan => if f = 0xC then Config.free2 n k % 2 ^ 32 else 0
    | .inf neg => top neg
    | v =>
      let i := roundInt rz v
      if i < lo then top true else if hi < i then top false else ofInt w i
  else
    let fm := fmtOf f
    match fm.top, v with
    | .ieee, .nan => nanFree fm n k
    | .finite, .nan => Config.free2 n k % 2 ^ fm.width
    | .finite, v => if !sat && tooBig fm rz v then Config.free2 n k % 2 ^ fm.width
                    else if rz then encodeRZ fm sat v else encodeF fm sat v
    | _, v =>
      let x := if rz then encodeRZ fm sat v else encodeF fm sat v
      /- MX formats have no infinity (R376) -/
      if isMx f && x % 2 ^ (fm.eb + fm.mb) == fm.limit then nanFree fm n k else x

/-! ### Approximated functions (R377) -/

/-- Fraction bits of the fixed-point working values. -/
def fixP : Nat := 160

/-- ln 2 in fixed point. -/
def fixLn2 : Nat := 2 * ((List.range 60).map (fun i => 2 ^ fixP / ((2 * i + 1) * 3 ^ (2 * i + 1)))).sum

/-- An FP32 encoding of a normal number. -/
def normal32 (x : Nat) : Bool := bits x 23 8 != 0 && bits x 23 8 != 255

/-- An FP32 result within 4 units in the last place of `r`. -/
def near32 (n k r : Nat) : Nat :=
  let m := r % 2 ^ 31
  r / 2 ^ 31 * 2 ^ 31 + (m + Config.free2 n k % 9 - min m 4)

/-- An approximation of `v`: within 4 units in the last place over normal inputs and results, free otherwise. -/
def approx (n k x : Nat) (v : FV) : Nat :=
  let r := encodeF fp32 false v
  if normal32 x && normal32 r then near32 n k r else Config.free2 n k % 2 ^ 32

/-- e^r for r in [0, ln 2), in fixed point: terms of the series from the i-th on. -/
def expSeries (r : Nat) : Nat → Nat → Nat → Nat
  | 0, _, _ => 0
  | fuel + 1, i, t => t + expSeries r fuel (i + 1) (t * r / 2 ^ fixP / (i + 1))

/-- exp x on FP32 encodings. -/
def exp32 (n k x : Nat) : Nat :=
  match decodeF fp32 x with
  | .fin neg m e =>
    if !normal32 x || decide (2 ^ 8 ≤ m * 2 ^ (e + 40).toNat / 2 ^ 40) then Config.free2 n k % 2 ^ 32
    else
      let a : Int := (if neg then -1 else 1) * ((m * 2 ^ fixP * 2 ^ (e + 160).toNat / 2 ^ 160 : Nat) : Int)
      let q : Int := a / (fixLn2 : Int)
      let r := (a - q * fixLn2).toNat
      approx n k x (.fin false (expSeries r 48 0 (2 ^ fixP)) (q - fixP))
  | _ => Config.free2 n k % 2 ^ 32

/-- 2 atanh t in fixed point. -/
def atanh2 (t : Nat) : Nat :=
  2 * ((List.range 60).map (fun i => t ^ (2 * i + 1) / 2 ^ (fixP * (2 * i)) / (2 * i + 1))).sum

/-- log x on FP32 encodings, subnormal ones included (R377). -/
def log32 (n k x : Nat) : Nat :=
  match decodeF fp32 x with
  | .fin false m e =>
    if m = 0 then Config.free2 n k % 2 ^ 32
    else
      let up := 23 - Nat.log2 m
      let (m, e) := (m * 2 ^ up, e - (up : Int))
      let t := (m - 2 ^ 23) * 2 ^ fixP / (m + 2 ^ 23)
      let v : Int := (e + 23) * (fixLn2 : Int) + atanh2 t
      let num (v : Int) : FV := .fin (decide (v < 0)) v.natAbs (-(fixP : Int))
      if 0x3F000000 ≤ x ∧ x ≤ 0x40000000 then
        encodeF fp32 false (num (v + (Config.free2 n k % (2 ^ (fixP - 20) + 1) : Nat) - 2 ^ (fixP - 21)))
      else near32 n k (encodeF fp32 false (num v))
  | _ => Config.free2 n k % 2 ^ 32

/-- 1 / x on FP32 encodings. -/
def rcp32 (n k x : Nat) : Nat :=
  match decodeF fp32 x with
  | .fin neg m e =>
    if !normal32 x then Config.free2 n k % 2 ^ 32
    else approx n k x (.fin neg (2 * (2 ^ 64 / m) + (if 2 ^ 64 % m = 0 then 0 else 1)) (-65 - e))
  | _ => Config.free2 n k % 2 ^ 32

/-- 1 / √x on FP32 encodings. -/
def rsqrt32 (n k x : Nat) : Nat :=
  match decodeF fp32 x with
  | .fin false m e =>
    if !normal32 x then Config.free2 n k % 2 ^ 32
    else
      let (m, e) := if e % 2 = 0 then (m, e) else (2 * m, e - 1)
      let s := Nat.sqrt (2 ^ 128 / m)
      approx n k x (.fin false (2 * s + (if s * s * m = 2 ^ 128 then 0 else 1)) (-65 - e / 2))
  | _ => Config.free2 n k % 2 ^ 32

end Sys2Proof.Machine
end

