-- ==== Sys2Proof/Machine/Bricks.lean ====
section
/-!
DEFINITION. Bricks: their fields, the check of a list, scratchpad regions, and what the MATRIX and VECTOR bricks compute
(09 R345-R347, R357-R378, R382).
-/

namespace Sys2Proof.Machine

/-! ### Fields and the check of a list (R353, R358-R372) -/

/-- Bits [lo, lo + n) of byte `b` of a brick. -/
def bb (r : Bytes) (b lo n : Nat) : Nat := bits (field r b 1) lo n

/-- A set bit of byte `b`. -/
def bf (r : Bytes) (b i : Nat) : Bool := bit (field r b 1) i

/-- Bytes [a, b] are zero. -/
def bz (r : Bytes) (a b : Nat) : Bool := field r a (b + 1 - a) == 0

/-- Reserved bits of the address word at byte `b` are zero (R359). -/
def awOk (r : Bytes) (b : Nat) : Bool := field r b 4 / 2 ^ 26 == 0

/-- The effective address of the address word at byte `b` (R359). -/
def aw (r : Bytes) (regs : List Nat) (b : Nat) : Nat :=
  let w := field r b 4
  if bit w 25 then (regs.getD (bits w 21 4) 0 + w % 2 ^ 21) % 2 ^ 64 else w % 2 ^ 21

/-- The unit that executes a brick (R358): 0 LOAD, 1 STORE, 2 MATRIX, 3 VECTOR, 4 issue. -/
def brickUnit (op : Nat) : Nat :=
  match op with
  | 0x10 => 0 | 0x08 => 1 | 0x11 => 1 | 0x20 => 2 | 0x21 => 2 | 0x22 => 2 | 0x38 => 2 | 0x12 => 3 | 0x30 => 3 | 0x31 => 3 | _ => 4

/-- AFMT and BFMT are an allowed pair (R367). -/
def mmaPair (a b : Nat) : Bool :=
  (a == 1 && b == 1) || (a == 2 && b == 2) || ((a == 3 || a == 4) && (b == 3 || b == 4)) || (isMx a && isMx b) ||
    ((a == 0xA || a == 0xB) && (b == 0xA || b == 0xB))

/-- A row of `n` elements holds whole groups (R374). -/
def groupsOk (f n : Nat) : Bool := if fmtBits f = 6 then n % 4 == 0 else if fmtBits f = 4 then n % 2 == 0 else true

/-- Formats of VOP and VRED (R371, R372). -/
def vecFmt (f : Nat) : Bool := decide (f ≤ 4) || f == 0xA || f == 0xC

/-- The brick at index `i` passes the check of R353; `owned` says which semaphores may be named. -/
def brickOk (r : Bytes) (i : Nat) (owned : Nat → Bool) : Bool :=
  bb r 1 4 4 == 0 &&
  (match field r 0 1 with
   | 0x00 | 0x01 | 0x02 => bz r 2 31
   | 0x03 => bb r 2 2 6 == 0 && bz r 3 3 && decide (1 ≤ field r 4 4) && decide (field r 8 2 < i) && bz r 10 31
   | 0x04 => decide (bb r 2 0 4 < 14) && bb r 3 6 2 == 0 && bz r 16 31
   | 0x05 => bb r 2 7 1 == 0 && bz r 3 3 && bz r 8 31 && owned (bb r 2 0 6)
   | 0x06 | 0x07 => bb r 2 6 2 == 0 && bz r 3 3 && bz r 8 31 && owned (bb r 2 0 6)
   | 0x08 => bb r 2 4 4 == 0 && bb r 3 7 1 == 0 && bb r 4 5 3 == 0 && bz r 5 7 && awOk r 12 && awOk r 16 && bz r 20 31 &&
       atomicOk (bb r 3 0 4) (bb r 3 4 3)
   | 0x10 =>
     let cmp := bf r 2 4
     let trans := bf r 2 5
     let f := bb r 3 0 4
     bb r 2 6 2 == 0 && bb r 3 4 4 == 0 && (cmp || decide (f ≤ 0xC)) && awOk r 16 && bz r 20 31 &&
       decide (field r 13 1 + 1 ≤ field r 14 2) &&
       (!trans || (!cmp && (fmtBits f == 8 || fmtBits f == 16 || fmtBits f == 32)))
   | 0x11 => bb r 2 5 3 == 0 && bb r 3 4 4 == 0 && (bf r 2 4 || decide (bb r 3 0 4 ≤ 0xC)) && awOk r 16 && bz r 20 31 &&
       decide (field r 13 1 + 1 ≤ field r 14 2)
   | 0x12 => bz r 2 3 && awOk r 4 && awOk r 8 && bz r 18 31
   | 0x20 =>
     let a := bb r 3 0 4
     let b := bb r 3 4 4
     let k := field r 4 2 + 1
     bb r 2 5 3 == 0 && mmaPair a b && decide (k ≤ 4096) && (!isMx a || k % 32 == 0) && bb r 6 6 2 == 0 && bb r 7 6 2 == 0 &&
       groupsOk a (field r 6 1 + 1) && groupsOk b (field r 7 1 + 1) && awOk r 8 && awOk r 12 &&
       (!isMx a || (awOk r 20 && awOk r 24)) && bz r 28 31
   | 0x21 =>
     let f := bb r 3 0 4
     bb r 2 4 4 == 0 && bb r 3 4 4 == 0 && decide (f ≤ 0xC) && bz r 4 5 && bb r 6 6 2 == 0 && bb r 7 6 2 == 0 &&
       groupsOk f (field r 7 1 + 1) && awOk r 8 && bz r 14 15 && (!isMx f || awOk r 20) && bz r 24 31
   | 0x22 =>
     let f := bb r 3 0 4
     bb r 2 4 4 == 0 && bb r 3 4 4 == 0 && (f == 0 || f == 0xC) && bz r 4 5 && bb r 6 6 2 == 0 && bb r 7 6 2 == 0 && awOk r 8 &&
       bz r 14 31
   | 0x30 => decide (field r 2 1 ≤ 0xF) && vecFmt (bb r 3 0 4) && vecFmt (bb r 3 4 4) && bb r 4 2 6 == 0 &&
       decide (1 ≤ field r 6 2 ∧ field r 6 2 ≤ 256) && awOk r 8 && awOk r 12 && awOk r 16 && awOk r 20 && bz r 26 27
   | 0x31 => decide (field r 2 1 ≤ 3) && vecFmt (bb r 3 0 4) && bb r 3 5 3 == 0 && bz r 4 4 &&
       decide (1 ≤ field r 6 2 ∧ field r 6 2 ≤ 256) && awOk r 8 && bz r 12 19 && awOk r 20 && bz r 26 31
   | 0x38 =>
     let kv := bb r 3 0 4
     let q := bb r 3 4 4
     bb r 2 3 5 == 0 && ((kv == 1 && q == 1) || ((kv == 3 || kv == 5) && (q == 3 || q == 4))) && bb r 4 6 2 == 0 &&
       awOk r 8 && awOk r 12 && awOk r 16 && awOk r 20
   | _ => false)

/-! ### Scratchpad (R345, R346, R359) -/

/-- One byte of the scratchpad: one that nothing has written since a library Lay list ran is free (log 33). -/
def Mason.byte (m : Mason) (a : Nat) : Byte :=
  match kget m.mem a, m.junk with
  | some b, _ => b
  | none, some n => BitVec.ofNat 8 (Config.free2 n a)
  | none, none => 0

/-- Bytes of a scratchpad range, and whether a line of it is tagged. -/
def Mason.read (m : Mason) (a n : Nat) : Bytes × Bool :=
  ((List.range n).map (fun i => m.byte (a + i)), (units 64 a n).any (fun l => sget false m.tags l))

/-- The cells that list the bytes written at `a`: a byte 0 is listed only where an unlisted byte is free. -/
def Mason.cells (m : Mason) (a : Nat) (l : Bytes) : List Host.Cell :=
  if m.junk.isSome then l.mapIdx (fun i b => (a + i, b)) else cellsOf a l

/-- Rows of a region: (address, bytes) (R359). -/
def rowsOf (start pitch rows bytes : Nat) : List (Nat × Nat) := (List.range rows).map (fun r => (start + r * pitch, bytes))

/-- A region starts and steps as R359 requires and lies in the scratchpad. -/
def regionOk (start pitch rows bytes : Nat) : Bool :=
  start % 32 == 0 && pitch % 32 == 0 && decide (32 ≤ pitch ∧ pitch ≤ 65504) && decide (start + (rows - 1) * pitch + bytes ≤ 2 ^ 21)

/-- A write within one scratchpad line or beyond: address, bytes, whether they derive from poisoned data. -/
abbrev SpWrite := Nat × Bytes × Bool

/-- A row written element by element, cut at lines; `pois` says which elements derive from poisoned data. -/
def rowWrite (a : Nat) (row : Bytes) (esz : Nat) (pois : Nat → Bool) : List SpWrite :=
  (units 64 a row.length).map (fun l =>
    let (lo, k) := unitPart 64 l a row.length
    (lo, (row.drop (lo - a)).take k, (units (max esz 1) (lo - a) k).any pois))

/-- What the writes of one brick do to the scratchpad: bytes, then tags (R346). -/
def Mason.writes (m : Mason) (ws : List SpWrite) : Mason :=
  let mem := ws.foldl (fun mem w => splice mem w.1 w.2.1.length (m.cells w.1 w.2.1)) m.mem
  let lines := (ws.flatMap (fun w => units 64 w.1 w.2.1.length)).eraseDups
  let tags := lines.foldl (fun t l =>
    let here := ws.filter (fun w => decide (w.1 < (l + 1) * 64 ∧ l * 64 < w.1 + w.2.1.length))
    if here.any (fun w => w.2.2) then sput false t l true
    else if (List.range 64).all (fun i => here.any (fun w => decide (w.1 ≤ l * 64 + i ∧ l * 64 + i < w.1 + w.2.1.length)))
    then sput false t l false else t) m.tags
  { m with mem := mem, tags := tags }

/-! ### Accumulators (R343, R346, R366) -/

/-- A word of an accumulator slot. -/
def Mason.accAt (m : Mason) (s i j : Nat) : Nat :=
  let k := s * 4096 + i * 64 + j
  match kget m.acc k, m.junk with
  | some v, _ => v
  | none, some n => Config.free2 n (2 ^ 22 + k) % 2 ^ 32
  | none, none => 0

/-- Accumulator words with one replaced. -/
def Mason.accPut (m : Mason) (a : Map Nat) (k v : Nat) : Map Nat := if m.junk.isSome then kput a k v else sput 0 a k v

/-- The slot with the words given, tag and class handled by R346 and R366. `whole` says that they are all of the slot's. -/
def Mason.putAcc (m : Mason) (s : Nat) (ws : List (Nat × Nat × Nat)) (whole tag : Bool) : Mason :=
  let acc := ws.foldl (fun a w => m.accPut a (s * 4096 + w.1 * 64 + w.2.1) w.2.2) m.acc
  { m with acc := acc,
           accTag := if tag then sput false m.accTag s true else if whole then sput false m.accTag s false else m.accTag }

/-- The slot zeroed. -/
def Mason.zeroAcc (m : Mason) (s : Nat) : Mason :=
  { m with acc := if m.junk.isSome then (List.range 4096).foldl (fun a i => kput a (s * 4096 + i) 0) m.acc
                  else m.acc.filter (fun e => e.1 / 4096 != s) }

/-- Index pairs of M × N words. -/
def grid (m n : Nat) : List (Nat × Nat) := (List.range m).flatMap (fun i => (List.range n).map (fun j => (i, j)))

/-! ### What a brick of MATRIX or VECTOR gives -/

/-- The Mason after a brick, the status that stops the Lay list (0 none), blocks damaged, blocks from poisoned input. -/
structure BrickOut where
  m : Mason
  status : Nat
  bad : List BlkOut
  poisonIn : Nat
deriving DecidableEq, Repr

/-- A brick that stops with MALFORMED and writes nothing. -/
def malformed (m : Mason) : BrickOut := { m := m, status := 0x7F, bad := [], poisonIn := 0 }

/-- What an expander delivers (R417): bytes, damaged blocks, how many blocks came from a tagged line, and whether the stream runs past the
end of the scratchpad (R359). -/
structure Stream where
  bytes : Bytes := []
  bad : List BlkOut := []
  poisonIn : Nat := 0
  off : Bool := false
deriving DecidableEq, Repr

/-- An operand: whether its region keeps to R359, and its expansion to R359 and R366; its rows, whether it is tagged, what its expander
met. -/
structure Opnd where
  region : Bool := true
  whole : Bool := true
  rows : List Bytes := []
  tag : Bool := false
  s : Stream := {}
deriving DecidableEq, Repr

/-- Every operand of a brick keeps to its region and is whole. -/
def opndsOk (l : List Opnd) : Bool := l.all (fun o => o.region && o.whole)

/-- A brick that its operands stop with MALFORMED: what expanders met is counted where no region was wrong when it started (10 R425). -/
def opndsBad (m : Mason) (l : List Opnd) : BrickOut :=
  if l.all (fun o => o.region) then
    { m := m, status := 0x7F, bad := l.flatMap (fun o => o.s.bad), poisonIn := (l.map (fun o => o.s.poisonIn)).sum }
  else malformed m

/-- Expands blocks from `a` until `need` bytes are had or the stream ends (R417). -/
def Mason.expand (m : Mason) (tbl : Nat → Option Bytes) (a need : Nat) : Nat → Stream
  | 0 => {}
  | fuel + 1 =>
    let h := (m.read a 32).1
    let len := 8 * blkClen h
    let known := headerOk h none
    if decide (2 ^ 21 < a + 32) || (known && decide (2 ^ 21 < a + len)) then { off := true }
    else
    let (b, p) := m.read a (if known then len else 32)
    let u := blkUlen h
    let next : Stream := if !known || decide (u < 4096) || decide (need ≤ u) then {}
      else m.expand tbl (a + len) (need - u) fuel
    match (if known then blkDecode tbl b none else .header) with
    | .ok x => { next with bytes := x ++ next.bytes, poisonIn := next.poisonIn + b2n p }
    | r => { next with bytes := (if known then zeros u else zeros need) ++ next.bytes,
                       bad := (if p then [] else [r]) ++ next.bad, poisonIn := next.poisonIn + b2n p }

/-- An operand of `rows` rows of `bytes` bytes (R359, R366). -/
def Mason.operand (m : Mason) (tbl : Nat → Option Bytes) (cmp : Bool) (a pitch rows bytes : Nat) : Opnd :=
  if cmp then
    if a % 32 ≠ 0 ∨ 2 ^ 21 < a + 32 then { region := false }
    else
      let s := m.expand tbl a (rows * bytes) (rows * bytes / 4096 + 2)
      { whole := !s.off && decide (rows * bytes ≤ s.bytes.length),
        rows := (List.range rows).map (fun r => (s.bytes.drop (r * bytes)).take bytes), tag := s.poisonIn != 0, s := s }
  else if regionOk a pitch rows bytes then
    let rs := (rowsOf a pitch rows bytes).map (fun r => m.read r.1 r.2)
    { rows := rs.map Prod.fst, tag := rs.any (fun r => r.2) }
  else { region := false }

/-- The status of a brick that met poison or damage (R380, R382). -/
def stopStatus (poison : Bool) (bad : List BlkOut) : Nat := if poison then 0x30 else if bad.isEmpty then 0 else 0x31

/-- MMA (R365-R367, R375). -/
def Mason.mma (m : Mason) (r : Bytes) (regs : List Nat) (tbl : Nat → Option Bytes) (n : Nat) : BrickOut :=
  let s := bb r 2 0 2
  let zero := bf r 2 2
  let af := bb r 3 0 4
  let bfm := bb r 3 4 4
  let k := field r 4 2 + 1
  let rows := field r 6 1 + 1
  let cols := field r 7 1 + 1
  let int := isInt af
  let oa := m.operand tbl (bf r 2 3) (aw r regs 8) (field r 16 2) k (rowBytes af rows)
  let ob := m.operand tbl (bf r 2 4) (aw r regs 12) (field r 18 2) k (rowBytes bfm cols)
  let oas := if isMx af then m.operand tbl false (aw r regs 20) 64 (k / 32) rows else {}
  let obs := if isMx af then m.operand tbl false (aw r regs 24) 64 (k / 32) cols else {}
  let ops := [oa, ob, oas, obs]
  if !opndsOk ops then opndsBad m ops
  else if !zero && sget false m.cls s != int then malformed m
  else
      let (a, b, as_, bs) := (oa.rows, ob.rows, oas.rows, obs.rows)
      let m := if zero then { m.zeroAcc s with cls := sput false m.cls s int, accTag := sput false m.accTag s false } else m
      let poison := ops.any (fun o => o.tag) || sget false m.accTag s
      let bad := oa.s.bad ++ ob.s.bad
      let va (i j : Nat) : FV := if isMx af then mxVal af (elemAt af (a.getD i []) j) (field (as_.getD (i / 32) []) j 1)
        else valOf af (elemAt af (a.getD i []) j)
      let vb (i j : Nat) : FV := if isMx bfm then mxVal bfm (elemAt bfm (b.getD i []) j) (field (bs.getD (i / 32) []) j 1)
        else valOf bfm (elemAt bfm (b.getD i []) j)
      let word (i j : Nat) : Nat :=
        if int then
          ofInt 32 ((List.range k).foldl (fun (x : Int) t =>
            x + toInt (fmtBits af) (elemAt af (a.getD t []) i) * toInt (fmtBits bfm) (elemAt bfm (b.getD t []) j))
            (toInt 32 (m.accAt s i j)))
        else sumAcc n ((i * 64 + j) * 2 ^ 20) (decodeF fp32 (m.accAt s i j) :: (List.range k).map (fun t => mulF (va t i) (vb t j)))
      let ws := (grid rows cols).map (fun x => (x.1, x.2, word x.1 x.2))
      { m := m.putAcc s ws zero (poison || !bad.isEmpty), status := stopStatus poison bad, bad := bad,
        poisonIn := oa.s.poisonIn + ob.s.poisonIn }

/-- The scale byte and the element codes of one MX block (R368): the scale of OCP Microscaling v1.0. A block of zeros, or one
that holds no finite value to scale by, has a free scale. -/
def mxBlock (n k f : Nat) (sat rz : Bool) (vs : List FV) : Nat × List Nat :=
  let emax : Int := match f with | 5 => 8 | 6 => 15 | 7 => 4 | _ => 2
  let finite := vs.all (fun v => match v with | .fin .. => true | _ => false)
  let lead := vs.foldl (fun (b : Option Int) v => match v with
    | .fin _ m e => if m = 0 then b else
        let x := e + (Nat.log2 m : Int)
        match b with | none => some x | some y => some (max x y)
    | _ => b) none
  match finite, lead with
  | true, some x =>
    let s : Nat := (max 0 (min 254 (x - emax + 127))).toNat
    (s, vs.mapIdx (fun i v => conv n (k + 8 * i) f sat rz (scaleF (127 - (s : Int)) v)))
  | true, none => (Config.free2 n k % 255, vs.mapIdx (fun i v => conv n (k + 8 * i) f sat rz v))
  | false, _ => (Config.free2 n k % 256, vs.mapIdx (fun i _ => Config.free2 n (k + 1 + i) % 2 ^ fmtBits f))

/-- ACCST (R368). -/
def Mason.accst (m : Mason) (r : Bytes) (regs : List Nat) (n : Nat) : BrickOut :=
  let s := bb r 2 0 2
  let sat := bf r 2 2
  let rz := bf r 2 3
  let f := bb r 3 0 4
  let rows := field r 6 1 + 1
  let cols := field r 7 1 + 1
  let a := aw r regs 8
  let sc := aw r regs 20
  let int := sget false m.cls s
  let blocks := (cols + 31) / 32
  if !regionOk a (field r 12 2) rows (rowBytes f cols) || (isMx f && !regionOk sc 64 rows blocks) || (f == 0xC && !int) then malformed m
  else
    let tag := sget false m.accTag s
    let val (i j : Nat) : FV :=
      let x := m.accAt s i j
      let v := if int then round32 (intF (toInt 32 x)) else decodeF fp32 x
      round32 (mulF v (decodeF fp32 (field r 16 4)))
    let k0 (i j : Nat) : Nat := (i * 64 + j) * 1024
    let row (i : Nat) : List Nat × Bytes :=
      if f = 0xC then ((List.range cols).map (fun j => m.accAt s i j), [])
      else if isMx f then
        let bs := (List.range blocks).map (fun b =>
          mxBlock n (k0 i (32 * b)) f sat rz ((List.range (min 32 (cols - 32 * b))).map (fun j => val i (32 * b + j))))
        (bs.flatMap Prod.snd, bs.map (fun x => BitVec.ofNat 8 x.1))
      else ((List.range cols).map (fun j => conv n (k0 i j) f sat rz (val i j)), [])
    let ws := (List.range rows).flatMap (fun i =>
      let (es, ss) := row i
      rowWrite (a + i * field r 12 2) (rowOf f es) 1 (fun _ => tag) ++
        (if isMx f then rowWrite (sc + i * 64) ss 1 (fun _ => tag) else []))
    { m := m.writes ws, status := 0, bad := [], poisonIn := 0 }

/-- ACCLD (R368). -/
def Mason.accld (m : Mason) (r : Bytes) (regs : List Nat) : BrickOut :=
  let s := bb r 2 0 2
  let f := bb r 3 0 4
  let rows := field r 6 1 + 1
  let cols := field r 7 1 + 1
  let o := m.operand (fun _ => none) false (aw r regs 8) (field r 12 2) rows (4 * cols)
  if !opndsOk [o] then malformed m
  else
    let (x, p) := (o.rows, o.tag)
    let ws := (grid rows cols).map (fun i => (i.1, i.2, elemAt f (x.getD i.1 []) i.2))
    let m := { m with cls := sput false m.cls s (f == 0xC) }
    { m := m.putAcc s ws (rows == 64 && cols == 64) p, status := stopStatus p [], bad := [], poisonIn := 0 }

/-- A VOP on one element (R371, R375, R377): x, y, z and IMM as FP32 encodings, to an FP32 value. -/
def vopVal (n k op x y z imm : Nat) : FV :=
  let v := decodeF fp32
  match op with
  | 0x0 | 0xF => round32 (addF (v x) (v y))
  | 0x1 => round32 (addF (v x) (negF (v y)))
  | 0x2 | 0xE => round32 (mulF (v x) (v y))
  | 0x3 => round32 (addF (mulF (v x) (v y)) (v z))
  | 0x4 => maxFree n k (v x) (v y)
  | 0x5 => minFree n k (v x) (v y)
  | 0x6 => round32 (addF (mulF (v x) (v imm)) (v y))
  | 0x7 => round32 (mulF (v x) (v imm))
  | 0x8 => v (exp32 n k x)
  | 0x9 => v (log32 n k x)
  | 0xA => v (rcp32 n k x)
  | 0xB => v (rsqrt32 n k x)
  | 0xC => maxFree n k (v x) (.fin false 0 0)
  | _ => v x

/-- An element as an FP32 encoding (R371). -/
def in32 (f x : Nat) : Nat := if f = 0 then x else encodeF fp32 false (valOf f x)

/-- VOP (R371). -/
def Mason.vop (m : Mason) (r : Bytes) (regs : List Nat) (n : Nat) : BrickOut :=
  let op := field r 2 1
  let fi := bb r 3 0 4
  let fo := bb r 3 4 4
  let rows := field r 5 1 + 1
  let cols := field r 6 2
  let pitch := field r 24 2
  let d := aw r regs 20
  let hasY := decide (op ≤ 6) || decide (0xE ≤ op)
  let one := decide (0xE ≤ op)
  let x := m.operand (fun _ => none) false (aw r regs 8) pitch rows (rowBytes fi cols)
  let y := if hasY then m.operand (fun _ => none) false (aw r regs 12) pitch (if one then 1 else rows) (rowBytes fi cols)
    else {}
  let z := if op = 3 then m.operand (fun _ => none) false (aw r regs 16) pitch rows (rowBytes fi cols) else {}
  if !opndsOk [x, y, z] || !regionOk d pitch rows (rowBytes fo cols) then malformed m
  else
      let (xs, ys, zs) := (x.rows, y.rows, z.rows)
      let poison := x.tag || y.tag || z.tag
      let esz := fmtBits fi / 8
      let tagAt (b i j : Nat) : Bool := sget false m.tags ((aw r regs b + i * pitch + j * esz) / 64)
      let pois (i j : Nat) : Bool := tagAt 8 i j || (hasY && tagAt 12 (if one then 0 else i) j) || (op == 3 && tagAt 16 i j)
      let el (i j : Nat) : Nat :=
        let g (l : List Bytes) (i : Nat) : Nat := in32 fi (elemAt fi (l.getD i []) j)
        let k := (i * 256 + j) * 16
        conv n (k + 8) fo (bf r 4 0) (bf r 4 1) (vopVal n k op (g xs i) (g ys (if one then 0 else i)) (g zs i) (field r 28 4))
      let ws := (List.range rows).flatMap (fun i =>
        rowWrite (d + i * pitch) (rowOf fo ((List.range cols).map (el i))) (fmtBits fo / 8) (pois i))
      { m := m.writes ws, status := stopStatus poison [], bad := [], poisonIn := 0 }

/-- VRED (R372). -/
def Mason.vred (m : Mason) (r : Bytes) (regs : List Nat) (n : Nat) : BrickOut :=
  let op := field r 2 1
  let f := bb r 3 0 4
  let byCol := bf r 3 4
  let rows := field r 5 1 + 1
  let cols := field r 6 2
  let d := aw r regs 20
  let count := if byCol then cols else rows
  let o := m.operand (fun _ => none) false (aw r regs 8) (field r 24 2) rows (rowBytes f cols)
  if !opndsOk [o] || !regionOk d 32 1 (4 * count) then malformed m
  else
      let (xs, p) := (o.rows, o.tag)
      let v (i j : Nat) : FV := decodeF fp32 (in32 f (elemAt f (xs.getD i []) j))
      let line (t : Nat) : List FV := if byCol then (List.range rows).map (fun i => v i t) else (List.range cols).map (fun j => v t j)
      let red (t : Nat) : Nat :=
        let k := t * 2 ^ 20
        let l := line t
        match op with
        | 0 => out32 n k (sumVec n l.length (k + 8) l)
        | 3 => out32 n k (sumVec n l.length (k + 8) (l.map (fun x => mulF x x)))
        | 1 => match l with | a :: l => out32 n k ((l.foldl (fun (s : FV × Nat) x => (maxFree n s.2 s.1 x, s.2 + 1)) (a, k + 8)).1) | [] => 0
        | _ => match l with | a :: l => out32 n k ((l.foldl (fun (s : FV × Nat) x => (minFree n s.2 s.1 x, s.2 + 1)) (a, k + 8)).1) | [] => 0
      let esz := fmtBits f / 8
      let tagAt (i j : Nat) : Bool := sget false m.tags ((aw r regs 8 + i * field r 24 2 + j * esz) / 64)
      let pois (t : Nat) : Bool := if byCol then (List.range rows).any (fun i => tagAt i t) else (List.range cols).any (fun j => tagAt t j)
      { m := m.writes (rowWrite d (rowOf 0 ((List.range count).map red)) 4 pois), status := stopStatus p [], bad := [], poisonIn := 0 }

/-- TCOPY (R362, R372). -/
def Mason.tcopy (m : Mason) (r : Bytes) (regs : List Nat) : BrickOut :=
  let s := aw r regs 4
  let d := aw r regs 8
  let rows := field r 12 1 + 1
  let n := field r 13 1 + 1
  if !regionOk s (field r 14 2) rows n || !regionOk d (field r 16 2) rows n then malformed m
  else
    let ws := (List.range rows).flatMap (fun i =>
      let a := s + i * field r 14 2
      rowWrite (d + i * field r 16 2) (m.read a n).1 1 (fun j => sget false m.tags ((a + j) / 64)))
    { m := m.writes ws, status := 0, bad := [], poisonIn := 0 }

/-- ATTEND (R369, R370). -/
def Mason.attend (m : Mason) (r : Bytes) (regs : List Nat) (tbl : Nat → Option Bytes) (n : Nat) : BrickOut :=
  let init := bf r 2 0
  let kvf := bb r 3 0 4
  let qf := bb r 3 4 4
  let rows := field r 4 1 + 1
  let dk := field r 5 1 + 1
  let dv := field r 6 1 + 1
  let t := field r 7 1 + 1
  let mx := kvf == 5
  let up32 (x : Nat) : Nat := (x + 31) / 32 * 32
  let sk := if mx then (dk + 31) / 32 else 0
  let sv := if mx then (t + 31) / 32 else 0
  let st := aw r regs 20
  /- scale rows are one byte an element: as long as the element rows of MXFP8 -/
  let q := m.operand tbl false (aw r regs 8) (up32 (rowBytes qf rows)) dk (rowBytes qf rows)
  let k := m.operand tbl (bf r 2 1) (aw r regs 12) (field r 28 2) (dk + sk) (rowBytes kvf t)
  let v := m.operand tbl (bf r 2 2) (aw r regs 16) (field r 30 2) (t + sv) (rowBytes kvf dv)
  let sOk := regionOk st 32 1 (8 * rows)
  if !sOk then malformed m
  else if !opndsOk [q, k, v] then opndsBad m [q, k, v]
  else
    let (qs, ks, vs) := (q.rows, k.rows, v.rows)
    let (sb, ps) := m.read st (8 * rows)
    let slots := (List.range ((dv + 63) / 64))
    let bad := k.s.bad ++ v.s.bad
    let poison := q.tag || k.tag || v.tag || (!init && (ps || slots.any (fun s => sget false m.accTag s)))
    /- what derives from poisoned or damaged data (R346): M and L of a row from its own queries, all of K and its old state; a slot's words
       from those, from V's columns of the slot and from what it held -/
    let hurtK := k.tag || !k.s.bad.isEmpty
    let qes := fmtBits qf / 8
    let rowHurt (i : Nat) : Bool := hurtK || (!init && (m.read (st + 8 * i) 8).2) ||
      (List.range dk).any (fun d => (m.read (aw r regs 8 + d * up32 (rowBytes qf rows) + i * qes) qes).2)
    let ves := fmtBits kvf / 8
    let slotHurt (s : Nat) : Bool := !v.s.bad.isEmpty || (!init && sget false m.accTag s) || (List.range rows).any rowHurt ||
      (if bf r 2 2 then v.tag else (List.range (t + sv)).any (fun j =>
        let es := if j < t then ves else 1
        (m.read (aw r regs 16 + j * field r 30 2 + 64 * s * es) ((min (64 * (s + 1)) dv - 64 * s) * es)).2))
    let qv (d i : Nat) : FV := valOf qf (elemAt qf (qs.getD d []) i)
    let kv (d j : Nat) : FV := let x := elemAt kvf (ks.getD d []) j
      if mx then mxVal kvf x (field (ks.getD (dk + d / 32) []) j 1) else valOf kvf x
    let vv (j e : Nat) : FV := let x := elemAt kvf (vs.getD j []) e
      if mx then mxVal kvf x (field (vs.getD (t + j / 32) []) e 1) else valOf kvf x
    let fr := fun x => decodeF fp32 x
    let one (i : Nat) : List (Nat × Nat) × Nat × Nat :=
      let k0 := i * 2 ^ 32
      let m0 := if init then fr 0xFF800000 else fr (field sb (8 * i) 4)
      let l0 := if init then fr 0 else fr (field sb (8 * i + 4) 4)
      let s := (List.range t).map (fun j =>
        round32 (mulF (fr (field r 24 4)) (fr (sumAcc n (k0 + j * 2 ^ 12) ((List.range dk).map (fun d => mulF (qv d i) (kv d j)))))))
      let k1 := k0 + 2 ^ 24
      let mx_ := (s.foldl (fun (a : FV × Nat) x => (maxFree n a.2 a.1 x, a.2 + 1)) (m0, k1)).1
      let ex (k : Nat) (a : FV) : FV := fr (exp32 n k (encodeF fp32 false (addF a (negF mx_))))
      let c := if m0 = .inf true then fr 0 else ex (k1 + 1024) m0
      let p := s.mapIdx (fun j x => ex (k1 + 2048 + j) x)
      let l := sumAcc n (k1 + 8192) (maybe32 n (k1 + 1025) (mulF l0 c) :: p)
      let rk := p.mapIdx (fun j x => valOf (if kvf = 1 then 1 else 3) (conv n (k1 + 2 ^ 20 + 4 * j) (if kvf = 1 then 1 else 3) false false x))
      let o := (List.range dv).map (fun e =>
        let k2 := k1 + 2 ^ 24 + e * 2 ^ 12
        let old := if init then fr 0 else fr (m.accAt (e / 64) i (e % 64))
        (e, sumAcc n k2 (maybe32 n (k2 + 4000) (mulF old c) :: rk.mapIdx (fun j x => maybe32 n (k2 + 3000 + j) (mulF x (vv j e))))))
      (o, encodeF fp32 false mx_, l)
    let res := (List.range rows).map (fun i => (i, one i))
    let out := slots.foldl (fun (m : Mason) s =>
      let ws := res.flatMap (fun x => (x.2.1.filter (fun o => o.1 / 64 == s)).map (fun o => (x.1, o.1 % 64, o.2)))
      { m with cls := sput false m.cls s false }.putAcc s ws (rows == 64 && decide (64 * (s + 1) ≤ dv)) (slotHurt s)) m
    let out := out.writes (rowWrite st (res.flatMap (fun x => leBytes 4 x.2.2.1 ++ leBytes 4 x.2.2.2)) 8 rowHurt)
    { m := out, status := stopStatus poison bad, bad := bad, poisonIn := k.s.poisonIn + v.s.poisonIn }

/-! ### Footprints, for hazards (R355, R357) -/

/-- Ranges a brick reads, region by region, and writes; slots it reads or writes as a mask. -/
structure Foot where
  reads : List (List (Nat × Nat))
  writes : List (List (Nat × Nat))
  slots : Nat
deriving DecidableEq, Repr

/-- The scratchpad footprint of a brick. A compressed operand reads at most the bound of R396. -/
def footOf (r : Bytes) (regs : List Nat) : Foot :=
  let reg (b pitch rows bytes : Nat) : List (Nat × Nat) := rowsOf (aw r regs b) pitch rows bytes
  let opnd (cmp : Bool) (b pitch rows bytes : Nat) : List (Nat × Nat) :=
    if cmp then [(aw r regs b, streamBound (rows * bytes))] else reg b pitch rows bytes
  match field r 0 1 with
  | 0x08 => { reads := [reg 12 32 1 32], writes := if bf r 4 4 then [] else [reg 16 32 1 16], slots := 0 }
  | 0x10 =>
    let es := fmtBits (bb r 3 0 4) / 8
    let w := if bf r 2 5 then reg 16 (field r 14 2) ((field r 13 1 + 1) / es) ((field r 12 1 + 1) * es)
      else reg 16 (field r 14 2) (field r 12 1 + 1) (field r 13 1 + 1)
    { reads := [], writes := [w], slots := 0 }
  | 0x11 => { reads := [reg 16 (field r 14 2) (field r 12 1 + 1) (field r 13 1 + 1)], writes := [], slots := 0 }
  | 0x12 => { reads := [reg 4 (field r 14 2) (field r 12 1 + 1) (field r 13 1 + 1)],
              writes := [reg 8 (field r 16 2) (field r 12 1 + 1) (field r 13 1 + 1)], slots := 0 }
  | 0x20 =>
    let af := bb r 3 0 4
    let k := field r 4 2 + 1
    let mx := if isMx af then [reg 20 64 (k / 32) (field r 6 1 + 1), reg 24 64 (k / 32) (field r 7 1 + 1)] else []
    { reads := [opnd (bf r 2 3) 8 (field r 16 2) k (rowBytes af (field r 6 1 + 1)),
                opnd (bf r 2 4) 12 (field r 18 2) k (rowBytes (bb r 3 4 4) (field r 7 1 + 1))] ++ mx, writes := [], slots := 2 ^ bb r 2 0 2 }
  | 0x21 =>
    let f := bb r 3 0 4
    let mx := if isMx f then [reg 20 64 (field r 6 1 + 1) ((field r 7 1 + 32) / 32)] else []
    { reads := [], writes := [reg 8 (field r 12 2) (field r 6 1 + 1) (rowBytes f (field r 7 1 + 1))] ++ mx, slots := 2 ^ bb r 2 0 2 }
  | 0x22 => { reads := [reg 8 (field r 12 2) (field r 6 1 + 1) (4 * (field r 7 1 + 1))], writes := [], slots := 2 ^ bb r 2 0 2 }
  | 0x30 =>
    let op := field r 2 1
    let rows := field r 5 1 + 1
    let rb := rowBytes (bb r 3 0 4) (field r 6 2)
    let p := field r 24 2
    { reads := [reg 8 p rows rb] ++ (if op ≤ 6 then [reg 12 p rows rb] else if 0xE ≤ op then [reg 12 p 1 rb] else []) ++
        (if op = 3 then [reg 16 p rows rb] else []),
      writes := [reg 20 p rows (rowBytes (bb r 3 4 4) (field r 6 2))], slots := 0 }
  | 0x31 => { reads := [reg 8 (field r 24 2) (field r 5 1 + 1) (rowBytes (bb r 3 0 4) (field r 6 2))],
              writes := [reg 20 32 1 (4 * (if bf r 3 4 then field r 6 2 else field r 5 1 + 1))], slots := 0 }
  | 0x38 =>
    let kvf := bb r 3 0 4
    let rows := field r 4 1 + 1
    let dk := field r 5 1 + 1
    let dv := field r 6 1 + 1
    let t := field r 7 1 + 1
    let qb := rowBytes (bb r 3 4 4) rows
    let x (n : Nat) : Nat := if kvf = 5 then (n + 31) / 32 else 0
    { reads := [reg 8 ((qb + 31) / 32 * 32) dk qb, opnd (bf r 2 1) 12 (field r 28 2) (dk + x dk) (rowBytes kvf t),
                opnd (bf r 2 2) 16 (field r 30 2) (t + x t) (rowBytes kvf dv), reg 20 32 1 (8 * rows)],
      writes := [reg 20 32 1 (8 * rows)], slots := 2 ^ ((dv + 63) / 64) - 1 }
  | _ => { reads := [], writes := [], slots := 0 }

/-- Two lists of ranges touch. -/
def touch (a b : List (List (Nat × Nat))) : Bool :=
  a.flatten.any (fun x => b.flatten.any (fun y => overlap x.1 x.2 y.1 y.2))

/-- Two bricks in progress at once conflict (R355). -/
def clash (a b : Foot) : Bool :=
  touch a.writes b.reads || touch a.writes b.writes || touch a.reads b.writes || Nat.land a.slots b.slots != 0

/-- A brick's destination overlaps a source otherwise than exactly (R357). -/
def selfClash (f : Foot) : Bool :=
  f.writes.any (fun w => f.reads.any (fun s => w != s && touch [w] [s]))

end Sys2Proof.Machine
end

