-- ==== Sys2Proof/Machine/Masons.lean ====
section
/-!
DEFINITION. Runs of Lay lists: starting and fetching one, issue, the control bricks, the pool bricks, completion, stopping,
semaphores (09 R342-R364, R380-R385).
-/

namespace Sys2Proof.Machine

/-! ### Courses and slots (R342, R348, R384) -/

/-- The assignment of slot `g` of Course `co`: assigned, Chamber (R386). -/
def Dev.slotOwner (d : Dev) (co g : Nat) : Option Nat :=
  let v := bits (d.rf .MSN_CO_CFG_SLOTS co) (5 * g) 5
  if 16 ≤ v then some (v % 16) else none

/-- The Mason that serves slot `g` of Course `co`. -/
def Dev.slotMason (d : Dev) (co g : Nat) : Nat :=
  if d.rb .MSN_CO_CFG_SPARE_EN co && d.rf .MSN_CO_CFG_SPARE_FOR co == g then 9 * co + 8 else 9 * co + g

/-- A Chamber's logical Masons, in order: the Mason of each. -/
def Dev.logicalMasons (d : Dev) (c : Nat) : List Nat :=
  ((List.range 128).filter (fun k => d.slotOwner (k / 8) (k % 8) == some c)).map (fun k => d.slotMason (k / 8) (k % 8))

/-- A Mason after a Mason reset (R366, R385). -/
def emptyMason : Mason :=
  { run := none, logical := 0, list := [], pc := 0, a := List.replicate 16 0, loops := [], queues := [], wait := none,
    stop := false, mem := [], tags := [], acc := [], cls := [], accTag := [],
    junk := none }

def Dev.mason (d : Dev) (k : Nat) : Mason := sget emptyMason d.masons k
def Dev.setMason (d : Dev) (k : Nat) (m : Mason) : Dev := { d with masons := sput emptyMason d.masons k m }

/-- A Mason reset (R385): BRICK becomes 0 (18 R704). -/
def Dev.masonReset (d : Dev) (k : Nat) : Dev := { d with masons := kdel d.masons k }.wf .MSN_STS_BRICK k 0

/-- STATE of a Mason (R387). -/
def Dev.masonState (d : Dev) (k : Nat) : Nat := d.rf .MSN_STS_STATE k

/-- Counts completed bricks, and busy cycles of the matrix unit (R390, 16 R640). -/
def Dev.countBricks (d : Dev) (k bricks cycles : Nat) : Dev :=
  let ovf (d : Dev) (f : Fld) : Dev := (d.wb f k true).setErrSts .ERR_STS_OVF
  let n := d.rf .MSN_BRICKS_COUNT k + bricks
  let d := if 2 ^ 48 ≤ n then ovf d .MSN_BRICKS_OVF else d
  let d := d.wf .MSN_BRICKS_COUNT k n
  if cycles = 0 then d
  else
    let b := d.rf .MSN_BUSY_CYCLES k + cycles
    let d := if 2 ^ 48 ≤ b then ovf d .MSN_BUSY_OVF else d
    let d := d.wf .MSN_BUSY_CYCLES k b
    { d with err.tlm.busy := d.err.tlm.busy + cycles }

/-- Counts one completed brick (R390). -/
def Dev.countBrick (d : Dev) (k cycles : Nat) : Dev := d.countBricks k 1 cycles

/-- ACLK cycles that the matrix unit takes for a brick (R379). -/
def matrixCycles (r : Bytes) : Nat :=
  let up (a b : Nat) : Nat := (a + b - 1) / b
  match field r 0 1 with
  | 0x20 =>
    let a := bb r 3 0 4
    let b := bb r 3 4 4
    let k := field r 4 2 + 1
    24 + (if a = 1 ∨ a = 2 then 2 * k else if (a = 9 ∧ b = 9) ∨ (a = 0xB ∧ b = 0xB) then up k 2 else k)
  | 0x21 | 0x22 => 8 + up ((field r 6 1 + 1) * (field r 7 1 + 1)) 64
  | 0x38 =>
    let f := if bb r 3 0 4 = 1 then 2 else 1
    let rows := field r 4 1 + 1
    let dk := field r 5 1 + 1
    let dv := field r 6 1 + 1
    let t := field r 7 1 + 1
    40 + f * (up t 64 * dk + up dv 64 * t) + up (rows * t) 64
  | _ => 0

/-! ### Stopping (R380, R381) -/

/-- Nothing is in progress in the units of a Mason. -/
def Mason.unitsIdle (m : Mason) : Bool := m.queues.all (fun e => e.2.isEmpty)

/-- A Mason whose part of its run is over becomes idle. -/
def Dev.masonEnd (d : Dev) (k : Nat) : Dev :=
  let m := d.mason k
  match m.run with
  | none => d
  | some id =>
    let d := d.setMason k { m with run := none, stop := false, wait := none, queues := [], loops := [] }
    let d := { d with runs := kmod d.runs id (fun r => { r with ended := r.ended ++ [k] }) }
    if d.masonState k = 4 then d else d.wf .MSN_STS_STATE k 1

/-- A stopping Mason whose units are idle has stopped. -/
def Dev.masonSettle (d : Dev) (k : Nat) : Dev :=
  let m := d.mason k
  if m.stop && m.unitsIdle then d.masonEnd k else d

/-- A run stops for a cause that arose at brick `idx` of a Mason (R380, R381). -/
def Dev.stopRun (d : Dev) (id status idx logical : Nat) : Dev :=
  match kget d.runs id with
  | none => d
  | some r =>
    let r := { r with status := worseStatus r.status status, stop := match r.stop with | none => some (idx, logical) | s => s }
    let d := { d with runs := kput d.runs id r }
    r.masons.foldl (fun d k =>
      let m := d.mason k
      if m.run = some id then
        let d := (d.setMason k { m with stop := true, wait := none })
        (if d.masonState k = 2 then d.wf .MSN_STS_STATE k 3 else d).masonSettle k
      else d) d

/-! ### RUN (R350-R354) -/

/-- The Masons that a RUN names, when its range fits. -/
def Dev.runMasons (d : Dev) (o : Op) : Option (List Nat) :=
  let ms := d.logicalMasons o.chamber
  let first := o.f 26 1
  let n := o.f 27 1 + 1
  if 128 < n ∨ ms.length < first + n then none else some ((ms.drop first).take n)

/-- RESULT of a run that stopped at no brick (R354). -/
def noStop : Nat := 0xFFFFFFFF

/-- The Masons that RUNs admitted before an operation need and that have not started (R352). -/
def Dev.wantedBefore (d : Dev) (o : Op) : List Nat :=
  d.ops.flatMap (fun e =>
    if e.2.chamber == o.chamber && e.2.opcode == 0x48 && decide (e.2.order < o.order) && !e.2.unfetched &&
        (match e.2.phase with | .ending _ => false | _ => true) then
      match kget d.runs e.1 with
      | some r => if r.started then [] else r.masons
      | none => (d.runMasons e.2).getD []
    else [])

/-- RUN: its body is checked; it then waits to start. -/
def Dev.run (d : Dev) (id : Nat) : Dev :=
  d.runOp id 0x48 (fun o d =>
    if (kget d.runs id).isSome then d
    else
      let bricks := o.f 24 2
      if 2 < o.nslots ∨ o.f 16 8 % 32 ≠ 0 ∨ 2 ^ 52 < o.f 16 8 + 32 * bricks ∨ bricks = 0 ∨ 2048 < bricks ∨ o.f 28 4 ≠ 0 then
        d.finishOp id o { status := 0x7F, result := noStop }
      else match d.runMasons o with
        | none => d.finishOp id o { status := 0x7F, result := noStop }
        | some ms =>
          if ms.any (fun k => d.masonState k == 4) then d.finishOp id o { status := 0x50, result := noStop }
          else { d.setOp id { o with phase := .waiting } with
                   runs := kput d.runs id { masons := ms, started := false, fetched := false, ended := [], status := 0, stop := none,
                                            blocks := 0 } })

/-- A waiting run starts on all of its Masons (R351, R352). -/
def Dev.runStart (d : Dev) (id : Nat) : Dev :=
  match kget d.ops id, kget d.runs id with
  | some o, some r =>
    if r.started then d
    else if r.masons.any (fun k => d.masonState k == 4) then
      { d with runs := kdel d.runs id }.finishOp id o { status := 0x50, result := noStop }
    else if d.chmState o.chamber = 1 ∧ (r.masons.all (fun k => d.masonState k == 1)) = true ∧
        ((d.wantedBefore o).any (fun k => r.masons.contains k)) = false then
      let a0 := (List.range 4).map (fun i => o.f (32 + 8 * i) 8)
      let a4 := if o.nslots = 2 then (List.range 8).map (fun i => o.f (64 + 8 * i) 8) else List.replicate 8 0
      let start (d : Dev) (x : Nat × Nat) : Dev :=
        let m := d.mason x.1
        (d.setMason x.1 { m with run := some id, logical := o.f 26 1 + x.2, list := [], pc := 0, loops := [], queues := [],
                                 wait := none, stop := false, a := a0 ++ a4 ++ [0, 0, r.masons.length, x.2] }).wf .MSN_STS_STATE x.1 2
      let d := (r.masons.mapIdx (fun i k => (k, i))).foldl start d
      { d with runs := kput d.runs id { r with started := true } }
    else d
  | _, _ => d

/-- Ends a run that has run no brick. -/
def Dev.runFail (d : Dev) (id status : Nat) : Dev :=
  match kget d.ops id, kget d.runs id with
  | some o, some r =>
    let d := r.masons.foldl (fun d k => if (d.mason k).run = some id then d.masonEnd k else d) d
    { d with runs := kdel d.runs id }.finishOp id o { status := status, result := noStop }
  | _, _ => d

/-- The Mason a run's first requests come from, as a requester (08 R317). -/
def masonWho (c k unit : Nat) (nfz : Bool) : Who := { chamber := c, rq := k / 9, mt := some k, nfz := nfz, why := .mason (4 * k + unit) }

/-- A started run's Lay list is fetched and checked (R353). -/
def Dev.layFetched (d : Dev) (id : Nat) : Dev :=
  match kget d.ops id, kget d.runs id with
  | some o, some r =>
    let c := o.chamber
    let go : Bool := match o.phase with | .waiting => true | .blocked b => d.cleared c o.ans b | _ => false
    if !r.started || r.fetched || !go then d
    else
      let k := r.masons.headD 0
      let w : Who := { masonWho c k 0 false with why := .op id }
      let (res, es) := runEng (.op id) (eRead w (o.f 16 8) (32 * o.f 24 2)) d o.ans [] o.back
      match res with
      | .error (.block b start) => start (d.setOp id { o with phase := .blocked b })
      | .error (.fail st) => es.d.runFail id st
      | .ok (_, true) => es.d.runFail id 0x30
      | .ok (bs, false) =>
        let bricks := (List.range (o.f 24 2)).map (fun i => (bs.drop (32 * i)).take 32)
        let owned (co s : Nat) : Bool := es.d.slotOwner co (s / 8) == some c
        let all := r.masons.all (fun k => (bricks.mapIdx (fun i b => brickOk b i (owned (k / 9)))).all (fun b => b))
        if !all then es.d.runFail id 0x7F
        else
          let d := es.d.setOp id { o with phase := .waiting, ans := [] }
          let d := r.masons.foldl (fun d k => d.setMason k { d.mason k with list := bricks }) d
          { d with runs := kput d.runs id { r with fetched := true } }
  | _, _ => d

/-- Every Mason of a run has ended or stopped: the RUN completes (R354, R381). -/
def Dev.runComplete (d : Dev) (id : Nat) : Dev :=
  match kget d.ops id, kget d.runs id with
  | some o, some r =>
    if !r.fetched || !r.masons.all (fun k => r.ended.contains k) then d
    else
      let d := { d with runs := kdel d.runs id }
      let res := match r.stop with | none => noStop | some (i, l) => i + l * 2 ^ 32
      d.finishOp id o { status := r.status, count := if r.status = 0x31 then r.blocks else o.lines, result := res }
  | _, _ => d

/-! ### Performing the bricks of the units -/

/-- The bytes of lines read, cut to a range, with a mark for each byte's line. -/
def lineMark (ls : List (Nat × Bytes × Bool)) (a : Nat) : Bool := ls.any (fun l => l.1 == a / 64 * 64 && l.2.2)

/-- The outcome of engine work with its failure as a value. -/
def eTry {α : Type} (m : Eng α) : Eng (Except Nat α) :=
  tryCatch (do return .ok (← m)) (fun e => match e with
    | .fail st => return .error st
    | .block b s => throw (.block b s))

/-- The rows of a TLOAD (R41, R363): bytes and, per byte, whether its line is poisoned; up to the row whose read fails, and the status of
that failure, 0 for none (R381, log 151). -/
def eTile (w : Who) (base pitch bytes : Nat) : Nat → Nat → Eng (List (Bytes × List (Nat × Bytes × Bool)) × Nat)
  | 0, _ => return ([], 0)
  | rows + 1, i => do
    let a := base + i * pitch
    match (← eTry (eReadLines w a bytes)) with
    | .error st => return ([], st)
    | .ok ls =>
      let row := (((ls.map (fun l => l.2.1)).flatten).drop (a % 64)).take bytes
      let (rest, st) ← eTile w base pitch bytes rows (i + 1)
      return ((row, ls) :: rest, st)

/-- Poison was met by engine work. -/
def ePoison (p : Bool) : Eng Unit := modify (fun s => { s with poison := s.poison || p })

/-- The pool base of a tile or atomic brick (R362): A[BASE] + OFFSET. -/
def poolBase (r : Bytes) (regs : List Nat) (off : Nat) : Nat :=
  ofInt 64 ((regs.getD (bb r 2 0 4) 0 : Int) + toInt 32 (field r off 4))

/-- A tile brick's tile breaks R41. -/
def tileBad (r : Bytes) (base : Nat) : Bool :=
  let es := if bf r 2 4 then 1 else max 1 (fmtBits (bb r 3 0 4) / 8)
  let pitch := field r 8 4
  let n := field r 13 1 + 1
  base % es != 0 || pitch % es != 0 || decide (pitch < n) || decide (2 ^ 52 < base + field r 12 1 * pitch + n)

/-- TLOAD (R362, R363): the Mason with its outputs, and the status that stops the Lay list. Its rows are translated together (08 R326). -/
def eTload (w : Who) (m : Mason) (r : Bytes) (regs : List Nat) : Eng (Mason × Nat) := do
  let base := poolBase r regs 4
  let rows := field r 12 1 + 1
  let n := field r 13 1 + 1
  let sp := aw r regs 16
  let spp := field r 14 2
  let es := fmtBits (bb r 3 0 4) / 8
  let trans := bf r 2 5
  let ok := if trans then regionOk sp spp (n / es) (rows * es) else regionOk sp spp rows n
  if tileBad r base || !ok then eFail 0x7F
  let pitch := field r 8 4
  eXlateAll w ((List.range rows).map (fun i => (base + i * pitch, n))) false
  let (t, st) ← eTile w base pitch n rows 0
  ePoison (t.any (fun x => x.2.any (fun l => l.2.2)))
  if trans then
    let ws := (List.range (n / es)).flatMap (fun c =>
      rowWrite (sp + c * spp) (t.flatMap (fun x => (x.1.drop (c * es)).take es)) es
        (fun i => lineMark ((t.getD i ([], [])).2) (base + i * pitch + c * es)))
    return (m.writes ws, st)
  let ws := (t.mapIdx (fun i x => (i, x))).flatMap (fun x =>
    rowWrite (sp + x.1 * spp) x.2.1 1 (fun j => lineMark x.2.2 (base + x.1 * pitch + j)))
  return (m.writes ws, st)

/-- The lines of a tile to be stored: each line once, with its mask, bytes and mark (R363). -/
def tileLines (ps : List (Nat × Bytes × Bool)) : Map WLine :=
  ps.foldl (fun mp p =>
    (units 64 p.1 p.2.1.length).foldl (fun mp l =>
      let (lo, k) := unitPart 64 l p.1 p.2.1.length
      let o := (kget mp l).getD { mask := 0, data := zeros 64, poison := false }
      let mask := (2 ^ k - 1) * 2 ^ (lo % 64)
      kput mp l { mask := o.mask ||| mask, data := mergeMask mask o.data (zeros (lo % 64) ++ (p.2.1.drop (lo - p.1)).take k),
                  poison := o.poison || p.2.2 }) mp) []

/-- Writes lines burst by burst. -/
def eWriteLines (w : Who) (ls : Map WLine) : Eng Unit := do
  eXlateAll w (ls.map (fun e => (e.1 * 64, 64))) true
  eBursts ls (fun a ws span => eWriteBurst w a ws span)

/-- TSTORE (R362, R363); `wild` bytes are free. -/
def eTstore (w : Who) (m : Mason) (r : Bytes) (regs : List Nat) (wild : Option Nat) : Eng Unit := do
  let base := poolBase r regs 4
  let rows := field r 12 1 + 1
  let n := field r 13 1 + 1
  let sp := aw r regs 16
  let spp := field r 14 2
  if tileBad r base || !regionOk sp spp rows n then eFail 0x7F
  let pitch := field r 8 4
  let ps := (List.range rows).flatMap (fun i =>
    let a := base + i * pitch
    (units 64 (sp + i * spp) n).map (fun l =>
      let (lo, k) := unitPart 64 l (sp + i * spp) n
      let bs := match wild with
        | none => (m.read lo k).1
        | some f => (List.range k).map (fun j => BitVec.ofNat 8 (Config.free2 f (lo + j)))
      (a + (lo - sp - i * spp), bs, sget false m.tags l)))
  eWriteLines w (tileLines ps)

/-- ATOMIC (R364). An atomic on a poisoned line is not applied and tags its result region (16 R624). -/
def eAtomicBrick (w : Who) (m : Mason) (r : Bytes) (regs : List Nat) (wild : Option Nat) : Eng Mason := do
  let a := poolBase r regs 8
  let size := bb r 3 4 3
  let n := (atomicBytes size).getD 4
  let opa := aw r regs 12
  let res := aw r regs 16
  let noret := bf r 4 4
  if a % n ≠ 0 ∨ 2 ^ 52 ≤ a ∨ opa % 32 ≠ 0 ∨ 2 ^ 21 < opa + 32 ∨ (noret = false ∧ (res % 16 ≠ 0 ∨ 2 ^ 21 < res + 16)) then eFail 0x7F
  let (x, p) := m.read opa 32
  if p then eFail 0x30
  let x := match wild with | none => x | some f => (List.range 32).map (fun j => BitVec.ofNat 8 (Config.free2 f (opa + j)))
  let out ← eAtomic w a (bb r 3 0 4) size n (bb r 4 0 2) (bb r 4 2 2) (field x 0 n) (field x 16 n)
  ePoison out.poisoned
  if noret then return m
  return m.writes (rowWrite res (padTo 16 (leBytes n out.old)) 16 (fun _ => out.poisoned))

/-- What a brick writes in the scratchpad and the slots becomes free (R355, R357). -/
def Mason.freed (m : Mason) (r : Bytes) (regs : List Nat) (n : Nat) : Mason :=
  let f := footOf r regs
  let mem := (f.writes.flatten).foldl (fun mem w =>
    if w.1 + w.2 ≤ 2 ^ 21 then
      splice mem w.1 w.2 (m.cells w.1 ((List.range w.2).map (fun j => BitVec.ofNat 8 (Config.free2 n (w.1 + j)))))
    else mem) m.mem
  let acc := ((List.range 4).filter (fun s => bit f.slots s && field r 0 1 != 0x21)).foldl (fun a s =>
    (List.range 4096).foldl (fun a i => m.accPut a (s * 4096 + i) (Config.free2 n (2 ^ 22 + s * 4096 + i) % 2 ^ 32)) a) m.acc
  { m with mem := mem, acc := acc }

/-- Counts what an expander met (10 R425). -/
def Dev.countBad (d : Dev) (c : Nat) (bad : List BlkOut) (poisonIn : Nat) : Dev :=
  (bad.foldl (fun d b => d.countBlk c b) d).bump .FLW_CNT_POISON_IN c poisonIn

/-- The brick accesses pool memory. -/
def QBrick.pool (q : QBrick) : Bool := [0x08, 0x10, 0x11].contains (field q.raw 0 1)

/-- ORDER of an ATOMIC brick (R364); 0, relaxed, for others. -/
def QBrick.order (q : QBrick) : Nat := if field q.raw 0 1 = 0x08 then bb q.raw 4 2 2 else 0

/-- A pool brick waits for one that another unit was issued before it: a release for every one, every one for an acquire
(05 R197, R209). -/
def Mason.mustWait (m : Mason) (unit : Nat) (q : QBrick) : Bool :=
  q.pool && m.queues.any (fun e => e.1 != unit && e.2.any (fun x => x.pool && !x.done && decide (x.seq < q.seq) &&
    (bit q.order 1 || bit x.order 0)))

/-- The brick at the head of a unit's queue is performed, when what it waited for has come; a cause that it raises stops
the run, and the bricks queued behind it in its unit are not performed (R343, R355, R380, R381). -/
def Dev.perform1 (d : Dev) (k unit : Nat) : Dev :=
  let m := d.mason k
  match m.run, (sget [] m.queues unit) with
  | some id, q :: rest =>
    match kget d.ops id with
    | none => d
    | some o =>
      let c := o.chamber
      let ready := match q.blk with | none => true | some b => d.cleared c q.ans b
      if q.done || !ready || m.mustWait unit q then d
      else
        let n := d.fresh
        let d := d.drawn
        let op := field q.raw 0 1
        let w := masonWho c k unit o.nfz
        let back (m : Mason) (q : QBrick) : Mason := { m with queues := kput m.queues unit (q :: rest) }
        let last (m : Mason) (q : QBrick) : Mason := { m with queues := kput m.queues unit [q] }
        let free (m : Mason) : Mason := if q.wild then m.freed q.raw q.regs n else m
        let eng (e : Eng (Mason × Nat)) : Dev :=
          match runEng w.why e d q.ans o.seen q.blk with
          | (.error (.block b start), _) => start (d.setMason k (back m { q with blk := some b }))
          | (.error (.fail st), es) =>
            ((es.d.setOp id (o.took es)).setMason k (last m { q with done := true, ans := [] })).stopRun id st q.idx m.logical
          | (.ok (m', st), es) =>
            let d := es.d.setOp id (o.took es)
            if st = 0 then d.setMason k (back (free m') { q with done := true, ans := [] })
            else (d.setMason k (last (free m') { q with done := true, ans := [] })).stopRun id st q.idx m.logical
        let whole (r : BrickOut) : Dev :=
          let d := (d.setMason k ((if r.status = 0 then back else last) (free r.m) { q with done := true })).countBad c r.bad r.poisonIn
          let d := { d with runs := kmod d.runs id (fun x => { x with blocks := x.blocks + r.bad.length }) }
          if r.status = 0 then d
          else
            let d := if r.status = 0x30 then d.logEvent { kind := 0x11, u := true, tag := c, detail := op } else d
            d.stopRun id r.status q.idx m.logical
        let tbl := d.table c
        let wild := if q.wild then some n else none
        match op with
        | 0x10 => eng (eTload w m q.raw q.regs)
        | 0x11 => eng (do eTstore w m q.raw q.regs wild; return (m, 0))
        | 0x08 => eng (do return (← eAtomicBrick w m q.raw q.regs wild, 0))
        | 0x12 => whole (m.tcopy q.raw q.regs)
        | 0x20 => whole (m.mma q.raw q.regs tbl n)
        | 0x21 => whole (m.accst q.raw q.regs n)
        | 0x22 => whole (m.accld q.raw q.regs)
        | 0x30 => whole (m.vop q.raw q.regs n)
        | 0x31 => whole (m.vred q.raw q.regs n)
        | _ => whole (m.attend q.raw q.regs tbl n)
  | _, _ => d

/-! ### Issue (R355, R356) -/

/-- The Mason that may issue the brick it has reached, with that brick, when its opcode is `opc`. -/
def Dev.atBrick (d : Dev) (k opc : Nat) : Option (Mason × Bytes × Nat) :=
  let m := d.mason k
  match m.run, m.list[m.pc]? with
  | some id, some r =>
    let held := (List.range 4).any (fun u => bit (bb r 1 0 4) u && !(sget [] m.queues u).isEmpty)
    if d.masonState k = 2 ∧ m.stop = false ∧ m.wait = none ∧ field r 0 1 = opc ∧ held = false then some (m, r, id) else none
  | _, _ => none

/-- A control brick: it is issued and executed at once. -/
def Dev.control (d : Dev) (k opc : Nat) (go : Mason → Bytes → Dev → Dev) : Dev :=
  match d.atBrick k opc with
  | none => d
  | some (m, r, _) => go m r ((d.wf .MSN_STS_BRICK k m.pc).countBrick k 0)

/-- The bricks in progress in other units that conflict with a new one get undefined results, and so does it (R355). -/
def Dev.hazards (d : Dev) (k unit : Nat) (r : Bytes) : Dev × Bool :=
  let m := d.mason k
  let f := footOf r m.a
  let hit := m.queues.flatMap (fun e => if e.1 = unit then [] else (e.2.filter (fun q => clash f (footOf q.raw q.regs))).map (fun q => (e.1, q)))
  if hit.isEmpty then (d, selfClash f)
  else
    let n := d.fresh
    let d := d.drawn
    let d := hit.foldl (fun d x =>
      let m := d.mason k
      let m := { m with queues := kmod m.queues x.1 (fun l => l.map (fun q => if q.idx = x.2.idx ∧ q.raw = x.2.raw then { q with wild := true } else q)) }
      let m := if x.2.done then m.freed x.2.raw x.2.regs n else m
      let d := d.setMason k m
      /- a store in progress whose source is overwritten: what it stores is free -/
      if x.2.done && (field x.2.raw 0 1 == 0x11) then
        match m.run.bind (kget d.ops) with
        | some o =>
          (match runEng (.mason (4 * k + 1)) (eTstore (masonWho o.chamber k 1 o.nfz) m x.2.raw x.2.regs (some n)) d [] with
           | (.ok _, es) => es.d
           | _ => d)
        | none => d
      else d) d
    (d, true)

/-- A brick of a unit is issued to its queue of 16, and starts when the unit is idle (R355). -/
def Dev.issue (d : Dev) (k opc : Nat) : Dev :=
  match d.atBrick k opc with
  | none => d
  | some (m, r, _) =>
    let u := brickUnit opc
    if 16 ≤ (sget [] m.queues u).length ∨ d.pwr.warm.isSome then d
    else
      let (d, wild) := d.hazards k u r
      let d := d.tick
      let m := d.mason k
      let q : QBrick := { raw := r, idx := m.pc, regs := m.a, done := false, wild := wild, blk := none, ans := [], seq := d.coh.clock }
      let d := (d.wf .MSN_STS_BRICK k m.pc).setMason k { m with queues := kput m.queues u (sget [] m.queues u ++ [q]), pc := m.pc + 1 }
      d.perform1 k u

/-- NOP (R360). -/
def Dev.nopBrick (d : Dev) (k : Nat) : Dev := d.control k 0x00 (fun m _ d => d.setMason k { m with pc := m.pc + 1 })

/-- A Mason at an ordering point: issue is held until every unit is idle and the gathered window writes of its Chamber are flushed; a
flush that failed stops the Lay list with TIMEOUT (R356, 05 R198, 14 R558). -/
def Dev.masonPoint (d : Dev) (k opc : Nat) (go : Dev → Dev) : Dev :=
  match d.atBrick k opc with
  | none => d
  | some (m, _, id) =>
    if !m.unitsIdle then d
    else match kget d.ops id with
      | none => d
      | some o =>
        if !(d.dirtyWins o.chamber).isEmpty then d.flushAll o.chamber
        else if d.flushFailed o.chamber then (d.clearFlushFail o.chamber).stopRun id 0x50 m.pc m.logical
        else go d

/-- END (R360): as SYNC; then the Mason's part of the run is complete. -/
def Dev.endBrick (d : Dev) (k : Nat) : Dev :=
  d.masonPoint k 0x01 (fun d => d.control k 0x01 (fun _ _ d => d.masonEnd k))

/-- SYNC (R356). -/
def Dev.syncBrick (d : Dev) (k : Nat) : Dev :=
  d.masonPoint k 0x02 (fun d => d.control k 0x02 (fun m _ d => d.setMason k { m with pc := m.pc + 1 }))

/-- LOOP (R361). A counter that another brick activated, still active, makes the iterations left free. -/
def Dev.loopBrick (d : Dev) (k : Nat) : Dev :=
  d.control k 0x03 (fun m r d =>
    let lc := bb r 2 0 2
    let n := d.fresh
    let (d, left) : Dev × Nat := match kget m.loops lc with
      | none => (d, field r 4 4 - 1)
      | some (owner, left) => if owner = m.pc then (d, left) else (d.drawn, Config.free n % 2 ^ 32)
    if left = 0 then d.setMason k { m with pc := m.pc + 1, loops := kdel m.loops lc }
    else d.setMason k { m with pc := field r 8 2, loops := kput m.loops lc (m.pc, left - 1) })

/-- SETA (R360). -/
def Dev.setaBrick (d : Dev) (k : Nat) : Dev :=
  d.control k 0x04 (fun m r d =>
    let s : Int := if bf r 3 4 then (m.a.getD (bb r 2 4 4) 0 : Int) else 0
    let t : Int := if bf r 3 5 then (m.a.getD (bb r 3 0 4) 0 : Int) * toInt 32 (field r 4 4) else 0
    d.setMason k { m with pc := m.pc + 1, a := m.a.set (bb r 2 0 4) (ofInt 64 (s + t + toInt 64 (field r 8 8))) })

/-- A semaphore of a Course. -/
def Dev.sem (d : Dev) (co s : Nat) : Nat := d.rf .MSN_SEM_VALUE (co * 64 + s)
def Dev.setSem (d : Dev) (co s v : Nat) : Dev := d.wf .MSN_SEM_VALUE (co * 64 + s) v

/-- SIGNAL (R349, R360): with REL = 1 it is first held as SYNC is. -/
def Dev.signalBrick (d : Dev) (k : Nat) : Dev :=
  let go (d : Dev) : Dev := d.control k 0x05 (fun m r d =>
    let s := bb r 2 0 6
    (d.setSem (k / 9) s (satAdd 32 (d.sem (k / 9) s) (field r 4 4))).setMason k { m with pc := m.pc + 1 })
  match d.atBrick k 0x05 with
  | none => d
  | some (_, r, _) => if bf r 2 6 then d.masonPoint k 0x05 go else go d

/-- SEMWAIT (R360): issue goes on once the semaphore reads at least VALUE. -/
def Dev.semwaitBrick (d : Dev) (k : Nat) : Dev :=
  match d.atBrick k 0x06 with
  | none => d
  | some (m, r, _) =>
    if field r 4 4 ≤ d.sem (k / 9) (bb r 2 0 6) then d.control k 0x06 (fun m _ d => d.setMason k { m with pc := m.pc + 1 })
    else (d.wf .MSN_STS_BRICK k m.pc).setMason k { m with wait := some (bb r 2 0 6, field r 4 4) }

/-- SEMSET (R349, R360). -/
def Dev.semsetBrick (d : Dev) (k : Nat) : Dev :=
  d.control k 0x07 (fun m r d => (d.setSem (k / 9) (bb r 2 0 6) (field r 4 4)).setMason k { m with pc := m.pc + 1 })

/-- A semaphore has reached a waiting SEMWAIT's value: issue resumes (R349). -/
def Dev.semwaitRelease (d : Dev) (k : Nat) : Dev :=
  let m := d.mason k
  match m.wait with
  | some (s, v) =>
    if v ≤ d.sem (k / 9) s then (d.countBrick k 0).setMason k { m with wait := none, pc := m.pc + 1 } else d
  | none => d

/-- A write of MSN_SEM (R349, R388). -/
def Dev.semWrite (d : Dev) (co s v : Nat) : Dev := d.setSem co s v

def Dev.atomicBrick (d : Dev) (k : Nat) : Dev := d.issue k 0x08
def Dev.tloadBrick (d : Dev) (k : Nat) : Dev := d.issue k 0x10
def Dev.tstoreBrick (d : Dev) (k : Nat) : Dev := d.issue k 0x11
def Dev.tcopyBrick (d : Dev) (k : Nat) : Dev := d.issue k 0x12
def Dev.mmaBrick (d : Dev) (k : Nat) : Dev := d.issue k 0x20
def Dev.accstBrick (d : Dev) (k : Nat) : Dev := d.issue k 0x21
def Dev.accldBrick (d : Dev) (k : Nat) : Dev := d.issue k 0x22
def Dev.vopBrick (d : Dev) (k : Nat) : Dev := d.issue k 0x30
def Dev.vredBrick (d : Dev) (k : Nat) : Dev := d.issue k 0x31
def Dev.attendBrick (d : Dev) (k : Nat) : Dev := d.issue k 0x38

/-! ### Completion of bricks (R355, R381, R383) -/

/-- A unit of a Mason completes its brick, and starts the next one of its queue (R355). A brick that waits completes only
once what it waits for has come. -/
def Dev.brickDone (d : Dev) (k unit : Nat) : Dev :=
  let d := d.perform1 k unit
  let m := d.mason k
  match sget [] m.queues unit with
  | [] => d
  | q :: rest =>
    if !q.done then d
    else
      let d := (d.setMason k { m with queues := kput m.queues unit rest }).countBrick k (if unit = 2 then matrixCycles q.raw else 0)
      (d.perform1 k unit).masonSettle k

/-- A MATRIX or VECTOR brick has run for MSN_BRICK_TMO (R383): the Mason is FAILED and powered off (R384), and its run stops. -/
def Dev.brickTimeout (d : Dev) (k : Nat) : Dev :=
  let m := d.mason k
  match m.run, (sget [] m.queues 2 ++ sget [] m.queues 3) with
  | some id, q :: _ =>
    let c := match kget d.ops id with | some o => o.chamber | none => 16
    let d := (d.wf .MSN_STS_STATE k 4).logEvent
      { kind := 0x0D, u := true, aform := 3, tag := c, uclass := 0, unit := k, detail := q.idx }
    let d := ((d.setMason k { m with queues := [], stop := true }).wf .PWR_DOM_STS_STATE k 0).send (.report 6 k)
    d.stopRun id 0x50 q.idx m.logical
  | _, _ => d

end Sys2Proof.Machine
end

