-- ==== Sys2Proof/Machine/Service.lean ====
section
/-!
DEFINITION. Work of the service cores: accesses to pool memory that no operation makes, for messages, journal commits and registers
(01 R29-R31, 11 R455, 12 R483, R505).
-/

namespace Sys2Proof.Machine

/-- How work is taken up: for the first time, or again with its number, the answers it holds and the wait it comes back from. -/
abbrev SvcAt := Option (Nat × List Ans × Blk)

/-- A service core as a requester, for its work `n` (08 R317). -/
def svcWho (c n : Nat) : Who := { chamber := c, rq := 97, mt := none, nfz := false, why := .svc n }

/-- Service-core work of a Chamber: the engine's accesses, then what they lead to. Work that must wait changes nothing but to start
what it waits for, and is taken up again whole; a failure ends it, and so does a fault in a Chamber that runs no more (log 131). -/
def Dev.svc (d : Dev) (at_ : SvcAt) (work : Svc) (c : Nat) (m : Who → Eng (Dev → Dev)) : Dev :=
  let n := (at_.map Prod.fst).getD d.nextSvc
  let ans := (at_.map (fun x => x.2.1)).getD []
  let (r, es) := runEng (.svc n) (m (svcWho c n)) d ans [] (at_.map (fun x => x.2.2))
  match r with
  | .ok k => k es.d
  | .error (.fail _) => es.d
  | .error (.block b start) =>
    let fault := match b with | .fault _ | .stalled _ => true | _ => false
    if fault && d.chmState c != 1 && d.chmState c != 2 then d.unparked (.svc n)
    else start { d with svcs := kput d.svcs n { work := work, chamber := c, blk := b, ans := ans }, nextSvc := max d.nextSvc (n + 1) }

/-- A Held line is taken from the agents that hold it, for a write of the device's own (04 R152, 05 R200). -/
def eTake (w : Who) (line : Nat) : Eng Unit := do
  eLineFree w line
  match kget (← eGet).coh.dir line with
  | some e => if e.cls = .held then eSnoop line false
  | none => pure ()

/-- The device zeroes the `n` bytes of T0 at local offset `a`, its own tables of a Chamber: once no agent holds a line of them, and with no
line of them left poisoned (08 R318, 11 R458, 01 R29, 16 R622). -/
def Dev.zeroRange (d : Dev) (at_ : SvcAt) (c a n : Nat) : Dev :=
  let inside (l : Nat) : Bool := decide (a ≤ 64 * l ∧ 64 * l < a + n)
  d.svc at_ (.zero c a n) c (fun w => do
    for e in (← eGet).coh.dir do
      if inside e.1 then eTake w e.1
    return fun d => { d.zeroMem a n with err.poison := d.err.poison.filter (fun e => !inside e.1) })

end Sys2Proof.Machine
end

