-- ==== Sys2Proof/Machine/Hoards.lean ====
section
/-!
DEFINITION. Hoards: the index, page maps and pool, geometry, and finding the owner (11 R426-R438, R454).
-/

namespace Sys2Proof.Machine

/-! ### Records and geometry (R429-R432) -/

/-- A record of the index (R432); of a record as an operation reads by it, the addresses that map entries had before a RELINK, by page
(R453). -/
structure HRec where
  key : Bytes
  tag : Nat
  st : Nat
  pinned : Bool
  packed : Bool
  fmt : Nat
  dcode : Nat
  nl : Nat
  nh : Nat
  tokens : Nat
  hseq : Nat
  last : Nat
  dir : Nat
  pages : Nat
  ops : Nat
  old : Map Nat := []
deriving DecidableEq, Repr

/-- The record that 64 bytes spell (R432). -/
def hDecode (b : Bytes) : HRec :=
  let s := field b 20 1
  let f := field b 21 1
  { key := b.take 16, tag := field b 16 4, st := s % 8, pinned := bit s 3, packed := bit s 4, fmt := f % 16, dcode := bits f 4 2,
    nl := field b 22 1 + 1, nh := field b 23 1 % 64 + 1, tokens := field b 24 4, hseq := field b 28 4, last := field b 32 8,
    dir := field b 40 8, pages := field b 48 4, ops := field b 52 4 }

/-- The 64 bytes of a record (R432). -/
def hEncode (r : HRec) : Bytes :=
  padTo 16 r.key ++ leBytes 4 r.tag ++ leBytes 1 (r.st + 8 * b2n r.pinned + 16 * b2n r.packed) ++
    leBytes 1 (r.fmt + 16 * r.dcode) ++ leBytes 1 (r.nl - 1) ++ leBytes 1 (r.nh - 1) ++ leBytes 4 r.tokens ++ leBytes 4 r.hseq ++
    leBytes 8 r.last ++ leBytes 8 r.dir ++ leBytes 4 r.pages ++ leBytes 4 r.ops ++ zeros 8

/-- Element bytes eb (R429). -/
def hEb (fmt : Nat) : Nat := if fmt = 1 then 2 else 1

/-- Head dimension D (R432). -/
def hDim (dcode : Nat) : Nat := 64 * 2 ^ dcode

/-- Tokens per page TPP (R429). -/
def hTpp (fmt dcode : Nat) : Nat :=
  match dcode with
  | 0 => 256
  | 1 => if fmt = 3 then 256 else 128
  | _ => if fmt = 3 then 128 else 64

/-- Format and head dimension that R429 accepts. -/
def hFmtOk (fmt dcode : Nat) : Bool := (fmt == 1 || fmt == 3 || fmt == 5) && decide (dcode ≤ 2)

/-- Token blocks of a count of tokens. -/
def hBlocks (r : HRec) (tokens : Nat) : Nat := (tokens + hTpp r.fmt r.dcode - 1) / hTpp r.fmt r.dcode

/-- Logical page of a token block, layer and head (R431). -/
def hPage (r : HRec) (blk l h : Nat) : Nat := (blk * r.nl + l) * r.nh + h

/-- Bytes of a transfer layout of U units and N tokens (R443). -/
def xferBytes (fmt dcode u n : Nat) : Nat :=
  let d := hDim dcode
  2 * u * n * d * hEb fmt + if fmt = 5 then u * n * (d / 32) + u * ((n + 31) / 32) * d else 0

/-- How the tokens [lo, hi) of block `blk` lie in a page (R430) and in a transfer layout that begins at token `first`, for
unit `u` (R443): byte in the page, byte in the layout, bytes. -/
def hMoves (fmt dcode units n u first blk lo hi : Nat) : List (Nat × Nat × Nat) :=
  let d := hDim dcode
  let eb := hEb fmt
  let tpp := hTpp fmt dcode
  let toks := (List.range (hi - lo)).map (fun i => lo + i)
  let elems := toks.flatMap (fun t => (List.range d).flatMap (fun e =>
    let p := t - blk * tpp
    let x := (t - first) * d * eb + e * eb
    [(e * tpp * eb + p * eb, u * n * d * eb + x, eb), (32768 + p * d * eb + e * eb, (units + u) * n * d * eb + x, eb)]))
  if fmt ≠ 5 then elems
  else
    let ks := toks.flatMap (fun t => (List.range (d / 32)).map (fun g =>
      (d * tpp + g * tpp + (t - blk * tpp), 2 * units * n * d + u * n * (d / 32) + (t - first) * (d / 32) + g, 1)))
    let vs := ((toks.map (fun t => t / 32)).eraseDups).flatMap (fun g => (List.range d).map (fun e =>
      (32768 + tpp * d + (g - blk * tpp / 32) * d + e,
        2 * units * n * d + units * n * (d / 32) + u * ((n + 31) / 32) * d + (g - first / 32) * d + e, 1)))
    elems ++ ks ++ vs

/-! ### Access by PA (R435) -/

/-- A PA as a translated address: Held, no staging (R29 stages 4 to 7). -/
def paXl (pa : Nat) : Xl := { pa := pa, cls := .held, t0s := false, level := 0, any := true }

/-- The lines that the byte range [pa, pa + n) touches. -/
def ePaLines (w : Who) (pa n : Nat) : Eng (List (Nat × Bytes × Bool)) := do
  let parts ← (burstsOf pa n).mapM (fun b => do
    match (← eGet).localLine b.1 with
    | none => eCheck w b.1
    | some (l, via) =>
      let r ← eReadHere w (paXl b.1) b.1 l b.2 via (blockMask (l % 1024) b.2)
      return r.mapIdx (fun i v => (b.1 + 64 * i, v.1, v.2)))
  return parts.flatten

/-- The bytes of a PA range and whether any line of them is poisoned. -/
def ePaRead (w : Who) (pa n : Nat) : Eng (Bytes × Bool) := do
  let ls ← ePaLines w pa n
  return ((((ls.map (fun l => l.2.1)).flatten).drop (pa % 64)).take n, ls.any (fun l => l.2.2))

/-- A number at a PA; poison ends the work POISON_CONSUMED. -/
def ePaNum (w : Who) (pa n : Nat) : Eng Nat := do
  let (b, p) ← ePaRead w pa n
  if p then eFail 0x30
  return ofLE b

/-- Writes lines given by PA / 64. They are not output lines of the operation, so its count of lines stays. -/
def ePaWrite (w : Who) (ls : Map WLine) : Eng Unit := do
  let n := (← get).lines
  let seen := (← get).seen
  modify (fun s => { s with tr := none })
  eBursts ls (fun a ws span => do
    match (← eGet).localLine a with
    | none => eCheck w a
    | some (l, via) => eWriteHere w (paXl a) a l ws via span)
  modify (fun s => { s with lines := n, seen := seen })

/-- Writes bytes at a PA, none poisoned. -/
def ePaPut (w : Who) (pa : Nat) (b : Bytes) : Eng Unit := ePaWrite w (tileLines [(pa, b, false)])

/-- Runs work whole or not at all: a failure leaves what stood before. -/
def eWhole {α : Type} (m : Eng α) : Eng α := do
  let s ← get
  tryCatch m (fun e => do set s; throw e)

/-! ### The index (R432, R433) -/

/-- PA of an index slot. -/
def Dev.idxPa (d : Dev) (c slot : Nat) : Nat := d.devnum * 2 ^ 48 + d.rf .HRD_IDX_OFFSET c * 2 ^ 16 + slot * 64

/-- Slots of the index. -/
def Dev.idxSize (d : Dev) (c : Nat) : Nat := 2 ^ d.rf .HRD_IDX_SIZE_LOG2 c

/-- The family of a model tag (R426). -/
def tagFam (tag : Nat) : Nat := tag / 2 ^ 24 % 256

/-- h of R433. -/
def hHash (key : Bytes) (fam : Nat) : Nat := crc32c (padTo 16 key ++ [BitVec.ofNat 8 fam])

/-- Reads a record as an engine. -/
def eIdx (w : Who) (slot : Nat) : Eng HRec := do
  let d ← eGet
  let (b, p) ← ePaRead w (d.idxPa w.chamber slot) 64
  if p then eFail 0x30
  return hDecode b

/-- Writes a record, in one line write. -/
def eIdxPut (w : Who) (slot : Nat) (r : HRec) : Eng Unit := do
  let d ← eGet
  ePaPut w (d.idxPa w.chamber slot) (hEncode r)

/-- A search's end: the Hoard found, and the first empty slot met. -/
structure Probe where
  hit : Option (Nat × HRec)
  empty : Option Nat
deriving DecidableEq, Repr

/-- The record is the one sought. -/
def HRec.is (r : HRec) (key : Bytes) (fam : Nat) : Bool := r.st != 0 && r.key == key && tagFam r.tag == fam

/-- Probes slots from the `i`-th of the run on (R433). -/
def eProbe (w : Who) (h n : Nat) (key : Bytes) (fam : Nat) : Nat → Nat → Eng Probe
  | 0, _ => return { hit := none, empty := none }
  | fuel + 1, i => do
    let s := (h + i) % n
    let r ← eIdx w s
    if r.st = 0 then return { hit := none, empty := some s }
    if r.is key fam then return { hit := some (s, r), empty := none }
    eProbe w h n key fam fuel (i + 1)

/-- The search of R433; an index not in use holds nothing. -/
def eFindHoard (w : Who) (key : Bytes) (fam : Nat) : Eng Probe := do
  let d ← eGet
  if !d.rb .HRD_IDX_EN w.chamber then return { hit := none, empty := none }
  eProbe w (hHash key fam) (d.idxSize w.chamber) key fam 32 0

/-- Closes the gap that a record leaves at `hole`: a later record of the run that a search would no longer reach moves into it
(R426, log 34). `k` slots after the hole are looked at. -/
def eClose (w : Who) (n : Nat) : Nat → Nat → Nat → Eng Unit
  | 0, _, _ => return ()
  | fuel + 1, hole, k => do
    if 32 ≤ k then return ()
    let j := (hole + k) % n
    let r ← eIdx w j
    if r.st = 0 then return ()
    if k ≤ (j + n - hHash r.key (tagFam r.tag) % n) % n then
      eIdxPut w hole r
      ePaPut w ((← eGet).idxPa w.chamber j) (zeros 64)
      eClose w n fuel j 1
    else eClose w n fuel hole (k + 1)

/-! ### The pool (R435) -/

/-- Extents of a Chamber's Hoard pool that serve it. -/
def Dev.poolExts (d : Dev) (c : Nat) : List Nat :=
  ((List.range (d.rf .HRD_POOL_COUNT c)).map (fun i => d.rf .HRD_POOL_FIRST c + i)).filter (fun n =>
    (extKind n == .t0 || extKind n == .lent) && (d.extent n).st == .open_ && (d.extent n).chamber == c)

/-- Pages of the pool, and those not allocated. -/
def Dev.poolPages (d : Dev) (c : Nat) : Nat := 4096 * (d.poolExts c).length
def Dev.poolFree (d : Dev) (c : Nat) : Nat :=
  d.poolPages c - (d.hrd.used.filter (fun u => u.1 == c && (d.poolExts c).contains (u.2 / 4096))).length

/-- The first page not allocated from the `i`-th page of the pool on. -/
def Dev.poolPick (d : Dev) (c : Nat) (xs : List Nat) : Nat → Nat → Option Nat
  | 0, _ => none
  | fuel + 1, i =>
    match xs[i / 4096 % xs.length]? with
    | none => none
    | some x =>
      let p := x * 4096 + i % 4096
      if d.hrd.used.any (fun u => u.2 == p) then d.poolPick c xs fuel (i + 1) else some p

/-- Allocates a page of the pool and zeroes it (R430); which free page is open. -/
def eAlloc (w : Who) : Eng Nat := do
  let d ← eGet
  let c := w.chamber
  let xs := d.poolExts c
  match d.poolPick c xs (d.hrd.used.length + 1) (Config.free d.fresh % max 1 (4096 * xs.length)) with
  | none => eFail 0x42
  | some p =>
    eMod (fun d => { d.drawn with hrd.used := d.hrd.used ++ [(c, p)] })
    let pa := d.devnum * 2 ^ 48 + p * 65536
    ePaPut w pa (zeros 65536)
    return pa

/-! ### Page maps (R434) -/

/-- A map entry (R434). -/
structure HEnt where
  addr : Nat
  cmp : Bool
  klen : Nat
  vlen : Nat
deriving DecidableEq, Repr

def hEnt (b : Bytes) : HEnt :=
  { addr := field b 0 8 % 2 ^ 56, cmp := bit (field b 7 1) 7, klen := field b 8 2, vlen := field b 10 2 }

def hEntBytes (e : HEnt) : Bytes := leBytes 8 (e.addr + 2 ^ 63 * b2n e.cmp) ++ leBytes 2 e.klen ++ leBytes 2 e.vlen ++ zeros 4

/-- Where the V stream of a compressed page begins, from the K stream. -/
def HEnt.vAt (e : HEnt) : Nat := (8 * e.klen + 63) / 64 * 64

/-- PA of the map page `i` of a directory. -/
def eMapPage (w : Who) (dir i : Nat) : Eng Nat := ePaNum w (dir + 8 * i) 8

/-- The entry of a logical page. -/
def eEntry (w : Who) (dir n : Nat) : Eng HEnt := do
  let m ← eMapPage w dir (n / 4096)
  if m = 0 then return hEnt (zeros 16)
  let (b, p) ← ePaRead w (m + 16 * (n % 4096)) 16
  if p then eFail 0x30
  return hEnt b

/-- The entry of a logical page as an operation admitted on the Hoard reads it: at the address it had when the operation was admitted,
where a RELINK has changed it since (R453). -/
def ePageEntry (w : Who) (r : HRec) (n : Nat) : Eng HEnt := do
  let e ← eEntry w r.dir n
  return match kget r.old n with
    | some a => { e with addr := a }
    | none => e

/-- Writes the entry of a logical page. -/
def eSetEntry (w : Who) (dir n : Nat) (e : HEnt) : Eng Unit := do
  let m ← eMapPage w dir (n / 4096)
  ePaPut w (m + 16 * (n % 4096)) (hEntBytes e)

/-- The pool pages of a Hoard: directory, maps and pages not in a pack extent, by local page. -/
def ePagesOf (w : Who) (r : HRec) : Eng (List Nat) := do
  let maps ← (List.range ((r.pages + 4095) / 4096)).mapM (fun i => eMapPage w r.dir i)
  let data ← (List.range r.pages).mapM (fun n => do return (← eEntry w r.dir n).addr)
  let d ← eGet
  return ((r.dir :: maps ++ data).map (fun a => a % 2 ^ 48 / 65536)).filter (fun p => d.hrd.used.contains (w.chamber, p))

/-- Returns pages to the pool. -/
def Dev.poolReturn (d : Dev) (c : Nat) (ps : List Nat) : Dev :=
  { d with hrd.used := d.hrd.used.filter (fun u => !(u.1 == c && ps.contains u.2)) }

/-- Operations are in progress on the Hoard with a directory (R448). -/
def Dev.dirBusy (d : Dev) (c dir : Nat) : Bool := d.hrd.ops.any (fun o => o.2.chamber == c && o.2.dir == dir)

/-- The pages of a Hoard that is gone are freed; they wait for the operations on it (R448). -/
def Dev.freePages (d : Dev) (c dir : Nat) (ps : List Nat) : Dev :=
  if d.dirBusy c dir then { d with hrd.dropped := kput d.hrd.dropped dir (c, ps) } else d.poolReturn c ps

/-- R448: removes a Hoard from the index; its pages wait for the operations on it. -/
def eDrop (w : Who) (slot : Nat) (r : HRec) : Eng Unit := do
  let d ← eGet
  let ps ← ePagesOf w r
  ePaPut w (d.idxPa w.chamber slot) (zeros 64)
  eClose w (d.idxSize w.chamber) (d.idxSize w.chamber) slot 1
  eMod (fun d => d.freePages w.chamber r.dir ps)

/-! ### Eviction (R454) -/

/-- Age of a Hoard in ms. -/
def Dev.hAge (d : Dev) (r : HRec) : Nat := min ((d.gt - r.last) / 1000000) (2 ^ 32 - 1)

/-- The Hoard to evict among slots: SEALED, unpinned, not PACKED, with no operations; the oldest, ties to the lower slot. -/
def eVictim (w : Who) (slots : List Nat) : Eng (Option (Nat × HRec)) := do
  let d ← eGet
  let rs ← slots.mapM (fun s => do return (s, (← eIdx w s)))
  return (rs.filter (fun x => x.2.st == 2 && !x.2.pinned && !x.2.packed && x.2.ops == 0)).foldl (fun b x =>
    match b with
    | none => some x
    | some y => if d.hAge y.2 < d.hAge x.2 ∨ (d.hAge y.2 = d.hAge x.2 ∧ x.1 < y.1) then some x else some y) none

/-- Evicts one Hoard of the slots, or ends POOL_SHORT. -/
def eEvict (w : Who) (slots : List Nat) : Eng Unit := do
  match (← eVictim w slots) with
  | none => eFail 0x42
  | some (s, r) =>
    eDrop w s r
    eMod (fun d => d.bump .HRD_CNT_EVICT w.chamber)

/-- Evicts one Hoard of a probe run for a record that takes its slot at once: the slot. Nothing closes the gap, since none stays (R426). -/
def eEvictInto (w : Who) (slots : List Nat) : Eng Nat := do
  match (← eVictim w slots) with
  | none => eFail 0x42
  | some (s, r) =>
    let ps ← ePagesOf w r
    eMod (fun d => (d.freePages w.chamber r.dir ps).bump .HRD_CNT_EVICT w.chamber)
    return s

/-- A slot for a record: the first empty one of its run, or one freed by eviction from the run (R454). -/
def eSlotFor (w : Who) (key : Bytes) (fam : Nat) : Eng Nat := do
  let n := (← eGet).idxSize w.chamber
  match (← eFindHoard w key fam).empty with
  | some s => return s
  | none => eEvictInto w ((List.range 32).map (fun i => (hHash key fam + i) % n))

/-- Every Hoard of a handoff whose COMMIT is being journaled still has a slot to be installed in, and so have the records `more`
(R455): they are laid into the index for a trial, which leaves nothing. -/
def eReserved (w : Who) (more : List Bytes) : Eng Unit := do
  let s ← get
  for b in (s.d.hrd.aside.filterMap (fun a => if a.2.chamber == w.chamber then a.2.built else none)) ++ more do
    let r := hDecode b
    let f ← eFindHoard w r.key (tagFam r.tag)
    match f.hit, f.empty with
    | some _, _ => pure ()
    | none, some e => eIdxPut w e r
    | none, none => eFail 0x42
  set s

/-- Evicts until `need` pages are free (R454). -/
def eRoom (w : Who) (need : Nat) : Nat → Eng Unit
  | 0 => return ()
  | fuel + 1 => do
    let d ← eGet
    if need ≤ d.poolFree w.chamber then return ()
    eEvict w (List.range (d.idxSize w.chamber))
    eRoom w need fuel

/-- Evicts until `need` pages are free, or ends POOL_SHORT. -/
def eNeed (w : Who) (need : Nat) : Eng Unit := do
  eRoom w need ((← eGet).idxSize w.chamber + 1)
  if (← eGet).poolFree w.chamber < need then eFail 0x42

/-! ### Tags (R427, R428) -/

/-- How a request's tag stands to a Hoard's: none (a miss), or a match and whether it is of the second kind. -/
def Dev.tagMatch (d : Dev) (c req own : Nat) : Option Bool :=
  if req = own then some false
  else if tagFam req ≠ tagFam own then none
  else
    let inside (k v : Nat) : Bool :=
      !serialAfter 24 (d.rf .HRD_COMPAT_FROM k) v && !serialAfter 24 v (d.rf .HRD_COMPAT_TO k)
    if (List.range 16).any (fun i =>
        let k := c * 16 + i
        d.rb .HRD_COMPAT_VALID k && d.rf .HRD_COMPAT_FAMILY k == tagFam req && inside k (req % 2 ^ 24) && inside k (own % 2 ^ 24))
    then some true else none

/-- RESULT of a Hoard operation (R440). -/
def hResult (tokens flags tag : Nat) : Nat := tokens % 2 ^ 32 + flags * 2 ^ 32 + tag % 2 ^ 24 * 2 ^ 40

/-! ### Leaving a Hoard (R432, R448) -/

/-- An operation on a Hoard has completed: OPS of its record falls (R432). -/
def Dev.hoardLeave (d : Dev) (at_ : SvcAt) (h : HOp) : Dev :=
  d.svc at_ (.leave h) h.chamber (fun w => do
    match (← eFindHoard w h.key h.fam).hit with
    | some (s, r) => if r.dir = h.dir then eIdxPut w s { r with ops := r.ops - 1 }
    | none => pure ()
    return id)

/-- An operation that ends leaves its Hoard. -/
def Dev.hoardForget (d : Dev) (id : Nat) : Dev :=
  match kget d.hrd.ops id with
  | none => d
  | some h => { d with hrd.ops := kdel d.hrd.ops id }.hoardLeave none h

/-- Every operation admitted on a dropped Hoard has completed: its pages are freed (R448). -/
def Dev.hoardPagesFree (d : Dev) (c : Nat) : Dev :=
  match d.hrd.dropped.find? (fun e => e.2.1 == c && !d.dirBusy c e.1) with
  | some (dir, _, ps) => { d with hrd.dropped := kdel d.hrd.dropped dir }.poolReturn c ps
  | none => d

end Sys2Proof.Machine
end

