-- ==== Sys2Proof/Machine/HoardOps.lean ====
section
/-!
DEFINITION. The Hoard operations: CREATE, APPEND, SEAL, ATTEND, FETCH, DROP, PIN, RELINK (11 R439-R453).
-/

namespace Sys2Proof.Machine

/-- Key, tag and family that a Hoard descriptor names (R440). -/
def Op.hKey (o : Op) : Bytes := (o.body.drop 16).take 16
def Op.hTag (o : Op) : Nat := o.f 32 4
def Op.hFam (o : Op) : Nat := tagFam o.hTag

/-- Every reserved byte and range of a Hoard descriptor that does not depend on the Hoard is as R442 to R449 require. -/
def hoardBad (o : Op) : Bool :=
  (if o.opcode = 0x33 then decide (2 < o.nslots) || (o.nslots == 2 && !o.zero 80 48) else o.nslots != 1) ||
  (match o.opcode with
   | 0x30 => bit (o.f 36 1) 7 || !hFmtOk (o.f 36 1 % 16) (bits (o.f 36 1) 4 2) || decide (64 ≤ o.f 38 1) || !o.zero 39 25
   | 0x31 => !o.zero 48 16 || !decide (1 ≤ o.f 36 4 ∧ o.f 36 4 ≤ 65536) || o.f 40 8 % 32 != 0 || decide (2 ^ 52 ≤ o.f 40 8)
   | 0x32 => decide (4 ≤ o.f 36 1) || decide (64 ≤ o.f 37 1) || !o.zero 38 26 || o.f 36 1 == 2
   | 0x33 => decide (64 ≤ o.f 37 1) || decide (16 ≤ o.f 38 1) || !o.zero 39 1 || o.f 40 8 % 32 != 0 || o.f 48 8 % 64 != 0 ||
       decide (2 ^ 52 ≤ o.f 40 8) || decide (2 ^ 52 ≤ o.f 48 8)
   | 0x34 => !o.zero 38 2 || decide (2 ^ 52 ≤ o.f 48 8)
   | 0x35 => !o.zero 36 28
   | 0x36 => decide (2 ≤ o.f 36 1) || !o.zero 37 27
   | _ => !o.zero 24 40 || decide (2 ^ 20 ≤ o.f 16 4) || decide (2 ^ 20 ≤ o.f 20 4))

/-- The operation as a requester: on Masons for ATTEND, carried by a Barrow otherwise. -/
def hWho (id : Nat) (o : Op) : Who := opWho id o

/-- Failures become a status, so that the operation can leave the Hoard (R432): no output is counted where nothing is done. `res` is the
RESULT of an operation that found its Hoard (R440). -/
def eDone (m : Eng Done) (res : Nat := 0) : Eng Done := do
  tryCatch m (fun e =>
    match e with
    | .fail st => do
      let n := (← get).lines
      return { status := st, result := res, count := if st = 0x30 ∨ st = 0x31 ∨ st = 0x40 ∨ st = 0x41 ∨ st = 0x50 then n else 0 }
    | .block b s => throw (.block b s))

/-! ### CREATE and DROP (R442, R448) -/

/-- The record of a Hoard that CREATE makes, with its directory (R442). -/
def Op.newRec (o : Op) (dir : Nat) : HRec :=
  let f := o.f 36 1
  { key := o.hKey, tag := o.hTag, st := 1, pinned := false, packed := false, fmt := f % 16, dcode := bits f 4 2,
    nl := o.f 37 1 + 1, nh := o.f 38 1 + 1, tokens := 0, hseq := 0, last := 0, dir := dir, pages := 0, ops := 0 }

/-- Makes a Hoard (R442): a slot and a directory page, freed by eviction where they must be. -/
def eCreate (w : Who) (o : Op) : Eng Unit := eWhole (do
  let d ← eGet
  if !d.rb .HRD_IDX_EN w.chamber then eFail 0x42
  let s ← eSlotFor w o.hKey o.hFam
  eIdxPut w s (o.newRec 0)
  eNeed w 1
  let dir ← eAlloc w
  match (← eFindHoard w o.hKey o.hFam).hit with
  | none => eFail 0x42
  | some (s, _) => eIdxPut w s (o.newRec dir)
  eReserved w [])

/-- CREATE with REPLACE of the Hoard found (R442). Operations admitted on the old one that are performed in arrival order come after it,
on the new one, as far as their tags match it (R453, log 153). -/
def eReplace (w : Who) (o : Op) (slot : Nat) (r : HRec) (after : Nat) : Eng Done := do
  eDrop w slot r
  eCreate w o
  match (← eFindHoard w o.hKey o.hFam).hit with
  | none => pure ()
  | some (s, x) =>
    let d ← eGet
    let goes (id : Nat) (h : HOp) : Option Bool :=
      if h.chamber == w.chamber && h.dir == r.dir && decide (after < h.seq) && h.kind != 0x33 && h.kind != 0x34 then
        match kget d.ops id with
        | some q => d.tagMatch w.chamber q.hTag x.tag
        | none => none
      else none
    eMod (fun d => { d with hrd.ops := d.hrd.ops.map (fun e =>
      match goes e.1 e.2 with
      | some k => (e.1, { e.2 with dir := x.dir, compat := k })
      | none => e) })
    eIdxPut w s { x with ops := (d.hrd.ops.filter (fun e => (goes e.1 e.2).isSome)).length }
  return { result := hResult 0 0 o.hTag }

/-! ### APPEND (R444) -/

/-- APPEND on its record. -/
def eAppend (w : Who) (o : Op) (flags slot : Nat) (r : HRec) : Eng Done := do
  let n := o.f 36 4
  let src := o.f 40 8
  let bytes := xferBytes r.fmt r.dcode (r.nl * r.nh) n
  let blocks := hBlocks r (r.tokens + n)
  if r.st ≠ 1 ∨ 2 ^ 24 - 1 < r.tokens + n ∨ (r.fmt = 5 ∧ r.tokens % 32 ≠ 0) ∨ 2 ^ 25 < blocks * r.nl * r.nh ∨ 2 ^ 52 < src + bytes then
    eFail 0x7F
  let total := blocks * r.nl * r.nh
  let oldMaps := (r.pages + 4095) / 4096
  let newMaps := (total + 4095) / 4096
  eWhole (eNeed w (total - r.pages + (newMaps - oldMaps)))
  let lines ← eReadLines w src bytes
  let flat := (lines.map (fun l => l.2.1)).flatten
  for i in List.range (newMaps - oldMaps) do
    let m ← eAlloc w
    ePaPut w (r.dir + 8 * (oldMaps + i)) (leBytes 8 m)
  for i in List.range (total - r.pages) do
    let a ← eAlloc w
    eSetEntry w r.dir (r.pages + i) { addr := a, cmp := false, klen := 0, vlen := 0 }
  let tpp := hTpp r.fmt r.dcode
  let b0 := r.tokens / tpp
  let mut count := 0
  for b in (List.range (blocks - b0)).map (fun i => b0 + i) do
    let lo := max r.tokens (b * tpp)
    let hi := min (r.tokens + n) ((b + 1) * tpp)
    for u in List.range (r.nl * r.nh) do
      let e ← eEntry w r.dir (b * r.nl * r.nh + u)
      let ps := (hMoves r.fmt r.dcode (r.nl * r.nh) n u r.tokens b lo hi).map (fun x =>
        (e.addr + x.1, (flat.drop (src % 64 + x.2.1)).take x.2.2, lineMark lines (src + x.2.1)))
      let ls := tileLines ps
      ePoison (ls.any (fun l => l.2.poison))
      ePaWrite w ls
      count := count + ls.length
  eIdxPut w slot { r with tokens := r.tokens + n, pages := total }
  return { count := count, result := hResult (r.tokens + n) flags r.tag }

/-! ### Pages as they stand (R430, R434, R445) -/

/-- The elements and scales of a page: `rows` K rows of `t` tokens with their scale rows, then V. -/
structure PageData where
  /-- bytes of the K region from its start with a pitch of `kp`, and of the V region -/
  k : Bytes
  v : Bytes
  kmark : Nat → Bool
  vmark : Nat → Bool
  bad : Nat

/-- Expands a stream block by block (R417): bytes and how many blocks were damaged. -/
def streamOut (tbl : Nat → Option Bytes) : Nat → Bytes → Bytes × List BlkOut
  | 0, _ => ([], [])
  | fuel + 1, s =>
    if s.length < 32 then ([], [])
    else
      let known := headerOk s none && decide (8 * blkClen s ≤ s.length)
      if !known then ([], [.header])
      else
        let (b, l) := streamOut tbl fuel (s.drop (8 * blkClen s))
        match blkDecode tbl (s.take (8 * blkClen s)) none with
        | .ok x => (x ++ b, l)
        | r => (zeros (blkUlen s) ++ b, r :: l)

/-- Rows packed with no gaps, spread to a pitch: `rows` of `n` bytes. -/
def spread (rows n pitch : Nat) (b : Bytes) : Bytes :=
  ((List.range rows).map (fun i => padTo pitch ((b.drop (i * n)).take n))).flatten

/-- The bytes of a page in the uncompressed layout, marks of its 64-byte lines, and how many stream blocks were damaged: a damaged
region is poisoned whole, as is one with a poisoned stream line (R420, R421). -/
def ePage (w : Who) (r : HRec) (e : HEnt) : Eng (Bytes × (Nat → Bool) × Nat) := do
  if !e.cmp then
    let ls ← ePaLines w e.addr 65536
    return ((ls.map (fun l => l.2.1)).flatten, (fun i => ls.any (fun l => l.1 == e.addr + 64 * i && l.2.2)), 0)
  let (ks, kp) ← ePaRead w e.addr (8 * e.klen)
  let (vs, vp) ← ePaRead w (e.addr + e.vAt) (8 * e.vlen)
  let tbl := (← eGet).table w.chamber
  let (kb, k1) := streamOut tbl 4096 ks
  let (vb, v1) := streamOut tbl 4096 vs
  eMod (fun d => d.countBad w.chamber (k1 ++ v1) (b2n kp + b2n vp))
  let d := hDim r.dcode
  let eb := hEb r.fmt
  let tpp := hTpp r.fmt r.dcode
  let t := kb.length / (d * eb + if r.fmt = 5 then d / 32 else 0)
  let sk := if r.fmt = 5 then d / 32 else 0
  let sv := if r.fmt = 5 then (t + 31) / 32 else 0
  let k := padTo 32768 (spread (d + sk) (t * eb) (tpp * eb) kb)
  let v := padTo 32768 (padTo (tpp * d * eb) (vb.take (t * d * eb)) ++ ((vb.drop (t * d * eb)).take (sv * d)))
  return (k ++ v, (fun i => if i < 512 then kp || !k1.isEmpty else vp || !v1.isEmpty), k1.length + v1.length)

/-- The record by whose directory an operation reads: what the Hoard was when it was admitted (R453). -/
def HOp.view (h : HOp) : HRec := { hDecode h.hrec with old := h.old }

/-- Copies the tokens [first, first + n) of layers [l0, l0 + nl) to a CVA in the transfer layout (R443, R447, R452): blocks that
were damaged. -/
def eFetchOut (w wOut : Who) (r : HRec) (l0 nl first n dst : Nat) : Eng Nat := do
  let tpp := hTpp r.fmt r.dcode
  let units := nl * r.nh
  let b0 := first / tpp
  let b1 := if n = 0 then b0 else (first + n + tpp - 1) / tpp
  let mut ps : List (Nat × Bytes × Bool) := []
  let mut bad := 0
  for b in (List.range (b1 - b0)).map (fun i => b0 + i) do
    for u in List.range units do
      let e ← ePageEntry w r (hPage r b (l0 + u / r.nh) (u % r.nh))
      let (bytes, mark, k) ← ePage w r e
      bad := bad + k
      ps := ps ++ (hMoves r.fmt r.dcode units n u first b (max first (b * tpp)) (min (first + n) ((b + 1) * tpp))).map (fun x =>
        (dst + x.2.1, (bytes.drop x.1).take x.2.2, mark (x.1 / 64)))
  let ls := tileLines ps
  ePoison (ls.any (fun l => l.2.poison))
  eWriteLines wOut ls
  return bad

/-- FETCH on its record, bound at admission (R447, R449). -/
def eFetchOp (w : Who) (o : Op) (flags bound : Nat) (r : HRec) : Eng Done := do
  let l0 := o.f 36 1
  let nl := o.f 37 1 + 1
  let from_ := o.f 40 4
  let n := if o.f 44 4 = 0 then bound - from_ else o.f 44 4
  let dst := o.f 48 8
  let bytes := xferBytes r.fmt r.dcode (nl * r.nh) n
  if r.nl < l0 + nl ∨ bound < from_ ∨ bound < from_ + n ∨ o.f 56 8 < bytes ∨ (r.fmt = 5 ∧ from_ % 32 ≠ 0) ∨ 2 ^ 52 < dst + bytes then
    eFail 0x7F
  let bad ← eFetchOut w w r l0 nl from_ n dst
  if bad ≠ 0 then return { status := 0x31, count := bad, result := hResult bound flags r.tag }
  return { count := (units 64 dst bytes).length, result := hResult bound flags r.tag }

/-! ### SEAL (R445) -/

/-- A region compressed block by block (R406, R421): the stream, and which of its bytes come from a poisoned block. -/
def packStream (fmt ti : Nat) (t : Option Bytes) (raw : List (Byte × Bool)) : Nat → List (Byte × Bool)
  | 0 => []
  | fuel + 1 =>
    if raw.isEmpty then []
    else
      let blk := raw.take 4096
      let p := blk.any (fun x => x.2)
      (blkEncodeAs 7 fmt ti t (blk.map Prod.fst)).map (fun b => (b, p)) ++ packStream fmt ti t (raw.drop 4096) fuel

/-- The K region of a page, then its V region, as `t` valid tokens packed with no gaps (R370, R445). -/
def packRegions (r : HRec) (t : Nat) (page : List (Byte × Bool)) : List (Byte × Bool) × List (Byte × Bool) :=
  let d := hDim r.dcode
  let eb := hEb r.fmt
  let tpp := hTpp r.fmt r.dcode
  let row (at_ n : Nat) : List (Byte × Bool) := (page.drop at_).take n
  let ks := if r.fmt = 5 then d / 32 else 0
  let vs := if r.fmt = 5 then (t + 31) / 32 else 0
  (((List.range (d + ks)).map (fun i => row (i * tpp * eb) (t * eb))).flatten,
    row 32768 (t * d * eb) ++ row (32768 + tpp * d * eb) (vs * d))

/-- What a page becomes in the pack extent: its entry with ADDR 0, and its bytes with marks. -/
structure Packed where
  ent : HEnt
  bytes : List (Byte × Bool)

/-- Bytes of a packed page in 64-byte units. -/
def Packed.units (p : Packed) : Nat := (p.bytes.length + 63) / 64

/-- A page as SEAL packs it. -/
def ePack (w : Who) (r : HRec) (cmp : Bool) (ti n : Nat) : Eng Packed := do
  let e ← eEntry w r.dir n
  let (b, mark, _) ← ePage w r e
  let page := b.mapIdx (fun i x => (x, mark (i / 64)))
  let tpp := hTpp r.fmt r.dcode
  let t := min tpp (r.tokens - n / (r.nl * r.nh) * tpp)
  let (k, v) := packRegions r t page
  let tbl := (← eGet).table w.chamber ti
  let ks := packStream r.fmt ti tbl k 17
  let vs := packStream r.fmt ti tbl v 17
  if cmp && decide (ks.length + vs.length < 65536) then
    let e : HEnt := { addr := 0, cmp := true, klen := ks.length / 8, vlen := vs.length / 8 }
    return { ent := e, bytes := ks ++ List.replicate (e.vAt - ks.length) (0, false) ++ vs }
  return { ent := { addr := 0, cmp := false, klen := 0, vlen := 0 }, bytes := page }

/-- Pieces of marked bytes at an address, line by line. -/
def markedPieces (a : Nat) (b : List (Byte × Bool)) : List (Nat × Bytes × Bool) :=
  (units 64 a b.length).map (fun l =>
    let (lo, k) := unitPart 64 l a b.length
    let x := (b.drop (lo - a)).take k
    (lo, x.map Prod.fst, x.any (fun y => y.2)))

/-- SEAL on its record. -/
def eSeal (w : Who) (o : Op) (flags slot : Nat) (r : HRec) : Eng Done := do
  let c := w.chamber
  let d ← eGet
  let res (fl : Nat) : Nat := hResult r.tokens (flags + fl) r.tag
  let inPlace (fl : Nat) : Eng Done := do
    eIdxPut w slot { r with st := 2 }
    return { count := 0, result := res fl }
  if !bit (o.f 36 1) 0 || r.packed then inPlace 0
  else if !d.rb .HRD_PACK_EN c then inPlace 8
  else
    let ps ← (List.range r.pages).mapM (fun n => ePack w r (bit (o.f 36 1) 1) (o.f 37 1) n)
    let total := (ps.map Packed.units).sum
    let used := d.rf .HRD_PACK_USED c
    if 2 ^ 22 < used + total then inPlace 8
    else
      let old ← ePagesOf w r
      let mut at_ := (d.devnum * 2 ^ 48 + d.rf .HRD_PACK_EXTENT c * 2 ^ 28 + used * 64)
      for (n, p) in ps.mapIdx (fun n p => (n, p)) do
        let ls := tileLines (markedPieces at_ p.bytes)
        ePoison (ls.any (fun l => l.2.poison))
        ePaWrite w ls
        eSetEntry w r.dir n { p.ent with addr := at_ }
        at_ := at_ + 64 * p.units
      /- what is left in the pool: directory and map pages -/
      eIdxPut w slot { r with st := 2, packed := true }
      let keep ← ePagesOf w r
      eMod (fun d => (d.poolReturn c (old.filter (fun p => !keep.contains p))).wf .HRD_PACK_USED c (used + total))
      return { count := total, result := res 0 }

/-! ### PIN (R448) -/

/-- Data pages of the Chamber's pinned Hoards but for slot `but`. -/
def ePinned (w : Who) (but : Nat) : Eng Nat := do
  let d ← eGet
  let rs ← (List.range (d.idxSize w.chamber)).mapM (fun s => do return (s, (← eIdx w s)))
  return ((rs.filter (fun x => x.1 != but && x.2.st != 0 && x.2.pinned)).map (fun x => x.2.pages)).sum

/-- PIN on its record. -/
def ePin (w : Who) (o : Op) (flags slot : Nat) (r : HRec) : Eng Done := do
  let d ← eGet
  if o.f 36 1 = 0 then
    eIdxPut w slot { r with pinned := false }
    return { result := hResult r.tokens flags r.tag }
  let n ← ePinned w slot
  if d.rf .HRD_CFG_PIN_MAX w.chamber * d.poolPages w.chamber < (n + r.pages) * 100 && !r.pinned then
    return { result := hResult r.tokens (flags + 16) r.tag }
  eIdxPut w slot { r with pinned := true }
  return { result := hResult r.tokens flags r.tag }

/-! ### ATTEND (R449-R452) -/

/-- The output of an attend for one query head: M, L and O as FP32 (R451). -/
structure Part where
  m : Nat
  l : Nat
  o : List Nat
deriving DecidableEq, Repr

/-- The partial of a query row that has met no token. -/
def emptyPart (d : Nat) : Part := { m := 0xFF800000, l := 0, o := List.replicate d 0 }

/-- The merge of R450, with the rounding that R378 leaves open drawn from `n`, numbers from `k` on. -/
def mergePart (n k : Nat) (a b : Part) : Part :=
  let fr := fun x => decodeF fp32 x
  let m := maxFree n k (fr a.m) (fr b.m)
  let c (i : Nat) (x : Nat) : FV := if x = 0xFF800000 then fr 0 else fr (exp32 n (k + i) (encodeF fp32 false (addF (fr x) (negF m))))
  let c1 := c 1 a.m
  let c2 := c 2 b.m
  let mix (i x y : Nat) : Nat :=
    encodeF fp32 false (addF (maybe32 n (k + i) (mulF (fr x) c1)) (maybe32 n (k + i + 1) (mulF (fr y) c2)))
  { m := encodeF fp32 false m, l := mix 3 a.l b.l, o := (List.range a.o.length).map (fun e => mix (5 + 2 * e) (a.o.getD e 0) (b.o.getD e 0)) }

/-- The ATTEND brick of one page (R369): rows, D, tokens, formats, SCALE. Q lies at 0, K at 64 KiB, V at 128 KiB, the state at
192 KiB. -/
def attendRaw (init : Bool) (fmt qfmt g d t scale tpp eb : Nat) : Bytes :=
  leBytes 1 0x38 ++ [0] ++ leBytes 1 (b2n init) ++ leBytes 1 (fmt + 16 * qfmt) ++ leBytes 1 (g - 1) ++ leBytes 1 (d - 1) ++
    leBytes 1 (d - 1) ++ leBytes 1 (t - 1) ++ leBytes 4 0 ++ leBytes 4 0x10000 ++ leBytes 4 0x20000 ++ leBytes 4 0x30000 ++
    leBytes 4 scale ++ leBytes 2 (tpp * eb) ++ leBytes 2 (d * eb)

/-- The scratchpad with bytes laid at an address, `mark` by 64-byte line of the bytes. -/
def Mason.lay (m : Mason) (a : Nat) (b : Bytes) (mark : Nat → Bool) : Mason :=
  { m with mem := splice m.mem a b.length (cellsOf a b),
           tags := (units 64 a b.length).foldl (fun t l => sput false t l (mark (l - a / 64))) m.tags }

/-- One Mason's share of an attend: pages by head and block; partials of the query heads, and the status that stops it (R450). -/
def eShare (w : Who) (o : Op) (r : HRec) (bound g : Nat) (q : List (Bytes × List Bool)) :
    List (Nat × Nat) → Option Nat → Mason → Eng (List (Nat × Mason) × Nat × Nat)
  | [], cur, m => return (match cur with | some h => [(h, m)] | none => [], 0, 0)
  | (h, b) :: rest, cur, m => do
    let d := hDim r.dcode
    let eb := hEb r.fmt
    let tpp := hTpp r.fmt r.dcode
    let t := min tpp (bound - b * tpp)
    let e ← ePageEntry w r (hPage r b (o.f 36 1) h)
    let (page, mark, bad) ← ePage w r e
    if bad ≠ 0 then return ([], 0x31, bad)
    let init : Bool := cur != some h
    let m0 : Mason := if init then emptyMason else m
    let (qb, qm) := q.getD h ([], [])
    let sk := if r.fmt = 5 then d / 32 else 0
    let sv := if r.fmt = 5 then (t + 31) / 32 else 0
    let v := (page.drop 32768).take (t * d * eb)
    let vs := (page.drop (32768 + tpp * d * eb)).take (sv * d)
    let m0 := ((m0.lay 0 qb (fun i => qm.getD i false)).lay 0x10000 (page.take ((d + sk) * tpp * eb)) mark).lay 0x20000 (v ++ vs)
      (fun i => if i * 64 < v.length then mark (512 + i) else mark ((32768 + tpp * d * eb + (i * 64 - v.length)) / 64))
    let n := (← eGet).fresh
    eMod Dev.drawn
    let out := m0.attend (attendRaw init r.fmt (o.f 38 1 % 16) g d t (o.f 56 4) tpp eb) (List.replicate 16 0) (fun _ => none) n
    if out.status ≠ 0 then return ([], out.status, 0)
    let (tail, st, k) ← eShare w o r bound g q rest (some h) out.m
    return ((if init then (match cur with | some h' => [(h', m)] | none => []) else []) ++ tail, st, k)

/-- The partials that a Mason holds for a KV head: one for each of its `g` query heads. -/
def partsOf (m : Mason) (g d : Nat) : List Part :=
  (List.range g).map (fun i =>
    { m := field (m.read (0x30000 + 8 * i) 4).1 0 4, l := field (m.read (0x30000 + 8 * i + 4) 4).1 0 4,
      o := (List.range d).map (fun e => m.accAt (e / 64) i (e % 64)) })

/-- A list cut into `k` contiguous runs of near-equal length (R450). -/
def nearEqual {α : Type} (l : List α) (k : Nat) : List (List α) :=
  (List.range k).map (fun i => (l.take (l.length * (i + 1) / k)).drop (l.length * i / k))

/-- The Masons of the attend range that an attend can take (R450, R352). -/
def Dev.takeMasons (d : Dev) (o : Op) (first n : Nat) : List Nat :=
  (((d.logicalMasons o.chamber).drop first).take n).filter (fun k => d.masonState k == 1 &&
    !(d.wantedBefore o).contains k)

/-- A library Lay list has run on a Mason: its scratchpad and accumulators, and what it counted, are free (log 33). -/
def Dev.masonUsed (d : Dev) (k : Nat) : Dev :=
  let n := d.fresh
  let d := d.drawn
  (d.setMason k { emptyMason with junk := some n }).countBricks k (Config.free2 n 0) (Config.free2 n 1)

/-- The query rows of each KV head (R449): bytes at a pitch of QP, and marks by line of them. -/
def eQueries (w : Who) (q d qp nh : Nat) : Eng (List (Bytes × List Bool)) :=
  (List.range nh).mapM (fun h => do
    let a := q + h * d * qp
    let ls ← eReadLines w a (d * qp)
    let b := (((ls.map (fun l => l.2.1)).flatten).drop (a % 64)).take (d * qp)
    return (b, (List.range ((d * qp + 63) / 64)).map (fun i => lineMark ls (a + 64 * i) || lineMark ls (a + 64 * i + 63))))

/-- ATTEND on the Masons `ks` (R449-R451). -/
def eAttend (w : Who) (o : Op) (flags bound : Nat) (r : HRec) (ks : List Nat) : Eng Done := do
  let d := hDim r.dcode
  let nq := o.f 37 1 + 1
  let g := nq / r.nh
  let qp := (g * hEb r.fmt + 31) / 32 * 32
  let wm : Who := { masonWho o.chamber (ks.headD 0) 0 o.nfz with why := w.why }
  let q ← eQueries wm (o.f 40 8) d qp r.nh
  let pages := (List.range r.nh).flatMap (fun h => (List.range (hBlocks r bound)).map (fun b => (h, b)))
  let shares ← (nearEqual pages ks.length).mapM (fun ps => eShare wm o r bound g q ps none emptyMason)
  eMod (fun d => ks.foldl (fun d k => d.masonUsed k) d)
  match shares.find? (fun s => s.2.1 != 0) with
  | some (_, st, bad) => return { status := st, count := if st = 0x31 then bad else 0, result := hResult bound flags r.tag }
  | none =>
    let n := (← eGet).fresh
    eMod Dev.drawn
    let held := (shares.map (fun s => s.1)).flatten
    let parts := (List.range nq).map (fun i =>
      let ps := (held.filter (fun x => x.1 == i / g)).map (fun x => (partsOf x.2 g d).getD (i % g) (emptyPart d))
      match ps with
      | [] => emptyPart d
      | p :: l => (l.foldl (fun a x => (mergePart n (a.2 * 1024) a.1 x, a.2 + 1)) (p, i * 256)).1)
    let bytes := (parts.map (fun p => leBytes 4 p.m ++ leBytes 4 p.l ++ leBytes 4 bound ++ zeros 52 ++ (p.o.map (leBytes 4)).flatten)).flatten
    eWrite wm (o.f 48 8) bytes
    return { count := bytes.length / 64, result := hResult bound flags r.tag }

/-- The checks of an ATTEND that its Hoard decides, at admission (R449, R452). -/
def Dev.attendBad (d : Dev) (o : Op) (r : HRec) (bound : Nat) : Bool :=
  let nq := o.f 37 1 + 1
  let qf := o.f 38 1
  decide (r.nl ≤ o.f 36 1) || nq % r.nh != 0 ||
    !(if r.fmt = 1 then qf == 1 else qf == 3 || qf == 4) ||
    (o.nslots == 2 && (decide (o.f 72 8 < xferBytes r.fmt r.dcode r.nh bound) || decide (2 ^ 52 < o.f 64 8 + o.f 72 8))) ||
    (o.nslots == 1 && d.rf .HRD_CFG_MCOUNT o.chamber == 0) || decide (2 ^ 52 < o.f 48 8 + nq * (64 + 4 * hDim r.dcode))

/-- The fallback of an ATTEND (R452): its layer's tokens below the bound go to SPILL. -/
def eSpill (w : Who) (o : Op) (flags bound : Nat) (r : HRec) : Eng Done := do
  let bad ← eFetchOut w w r (o.f 36 1) 1 0 bound (o.f 64 8)
  let b := xferBytes r.fmt r.dcode r.nh bound
  if bad ≠ 0 then return { status := 0x31, count := bad, result := hResult bound flags r.tag, fallback := true }
  return { count := (units 64 (o.f 64 8) b).length, result := hResult bound flags r.tag, fallback := true }

end Sys2Proof.Machine
end

