-- ==== Sys2Proof/Machine/Handoff.lean ====
section
/-!
DEFINITION. The conversation that finds a Hoard's owner, the rows of the Hoard descriptors, and the handoff of Hoards between
devices (11 R436-R441, R449, R452-R457).
-/

namespace Sys2Proof.Machine

/-! ### The conversation (R437, R438) -/

/-- The line under which the answer to an HREQ is kept for its operation. -/
def hAskLine : Nat := 2 ^ 60

/-- A service message of the Hoards, with `n` bytes of data in whole slots (R438). -/
def hMsg (op vc c : Nat) (args : Nat) (data : Bytes) : Msg :=
  { homeMsg op 5 vc with chamber := BitVec.ofNat 4 c, data := padTo ((data.length + 31) / 32 * 32) data,
                         args := BitVec.ofNat 64 ((data.length + 31) / 32 + args) }

/-- Forwards an operation's descriptor to a device (R437). -/
def Dev.hForward (d : Dev) (id : Nat) (o : Op) (dev : Nat) (noFwd : Bool) (stage : Nat) : Dev :=
  let d := d.setOp id { o with acc := stage, phase := .blocked (.answer hAskLine), ans := [] }
  match d.route (dev * 2 ^ 48) with
  | .away p _ =>
    d.askOut p { hMsg 0x54 0 o.chamber (2 ^ 16 * b2n noFwd) (o.body.take (64 * o.nslots)) with
                   tc := BitVec.ofNat 3 o.tc, af := true, addr := BitVec.ofNat 56 (dev * 2 ^ 48) } (.op id) hAskLine
  | _ => { d with ops := kmod d.ops id (fun o => { o with ans := o.ans ++
            [{ line := hAskLine, write := true, status := 0x50, data := [], poison := false, wprot := false }] }) }

/-- An operation of this device that its Hoard's absence ends (R441). -/
def Dev.hMiss (d : Dev) (id : Nat) (o : Op) : Dev := d.finishOp id { o with acc := 9 } { result := hResult 0 0 0 }

/-- The operation is another device's, that may not be forwarded (R437). -/
def Op.leaf (o : Op) : Bool := match o.reply with | some (_, q) => bit q.args.toNat 16 | none => false

/-- The bucket of the Hoard that an operation names, among those of every Chamber (R436). -/
def Op.bucket (o : Op) : Nat := o.chamber * 256 + (o.hKey.foldl (fun x y => Nat.xor x y.toNat) 0)

/-- The operation is at the bucket's previous owner, which leaves the making of a Hoard to DEV (R442, log 153). -/
def Dev.atPrev (d : Dev) (o : Op) : Bool := o.leaf && d.rb .HRD_BKT_PREV_V o.bucket && d.rf .HRD_BKT_PREV o.bucket == d.devnum

/-- The answer NOT_HERE to the device that forwarded the operation (R437). -/
def Dev.notHere (d : Dev) (id : Nat) (o : Op) (p : Nat) (q : Msg) : Dev := (d.freeOp id o).send (.msg p (hrspMsg q 1 0 (zeros 32)))

/-- CREATE makes its Hoard, unless another has come meanwhile: it is then served as one that found it (R442). -/
def Dev.hMake (d : Dev) (id : Nat) (o : Op) : Dev :=
  d.turn id o (do
      match (← eFindHoard (hWho id o) o.hKey o.hFam).hit with
      | some _ => return none
      | none => return some (← eDone (do eCreate (hWho id o) o; return { result := hResult 0 0 o.hTag })))
    (fun r o d =>
      match r with
      | some r => d.finishOp id o r
      | none => d.setOp id { o with acc := 5, phase := .ready })

/-- A Hoard in DOUBT, or one that nobody has: OWNER_UNKNOWN (R437, R456). -/
def Dev.hDoubt (d : Dev) (id : Nat) (o : Op) : Dev :=
  match o.reply with
  | some (p, q) => (d.freeOp id o).send (.msg p (hrspMsg q 3 0 (zeros 32)))
  | none => d.finishOp id o { status := 0x51 }

/-- The Hoard is not here: what the operation does next (R437, R442). -/
def Dev.hAbsent (d : Dev) (id : Nat) (o : Op) : Dev :=
  let b := d.rf .HRD_BKT_DEV o.bucket
  let rest (d : Dev) : Dev :=
    if o.acc = 0 && d.rb .HRD_BKT_PREV_V o.bucket && d.rf .HRD_BKT_PREV o.bucket != d.devnum then
      d.hForward id o (d.rf .HRD_BKT_PREV o.bucket) true 2
    else if o.opcode = 0x30 then d.hMake id o
    else d.hMiss id o
  match o.reply with
  | some (p, q) => if o.leaf then d.notHere id o p q else rest d
  | none =>
    if o.acc = 3 then d.hDoubt id o
    else if o.acc = 0 && b != d.devnum then d.hForward id o b false 1
    else rest d

/-- A Hoard has gone to device `x`: the origin asks there, or looks itself where it is `x`; a server tells its asker (R437). -/
def Dev.hGone (d : Dev) (id : Nat) (o : Op) (x : Nat) : Dev :=
  match o.reply with
  | some (p, q) => (d.freeOp id o).send (.msg p (hrspMsg q 2 x (zeros 32)))
  | none => if x = d.devnum then d.setOp id { o with acc := 3, phase := .ready, ans := [] } else d.hForward id o x true 3

/-- Flags HIT and COMPAT of a match (R440). -/
def hFlags (compat : Bool) : Nat := 1 + 2 * b2n compat

/-- Operations on one Hoard that are performed in arrival order (R453); CREATE with REPLACE goes with them. -/
def hOrdered (opc : Nat) : Bool := opc == 0x30 || opc == 0x31 || opc == 0x32 || opc == 0x35 || opc == 0x36

/-- Admits an operation on the Hoard found: its bound, OPS and LAST (R432, R449, R453). -/
def eAdmitHoard (w : Who) (id : Nat) (o : Op) (slot : Nat) (r : HRec) (compat : Bool) : Eng Unit := do
  let d ← eGet
  let lim := if o.opcode = 0x33 then o.f 60 4 else 0
  let bound := if lim = 0 then r.tokens else min lim r.tokens
  let stamp := o.opcode == 0x31 || o.opcode == 0x33 || o.opcode == 0x34 || o.opcode == 0x36
  let r := { r with ops := r.ops + 1, last := if stamp then d.gt % 2 ^ 64 else r.last }
  eIdxPut w slot r
  eMod (fun d => { d with
    nextOp := d.nextOp + 1
    hrd.ops := kput d.hrd.ops id { chamber := w.chamber, key := o.hKey, fam := o.hFam, dir := r.dir, kind := o.opcode, bound := bound,
                                   hrec := hEncode r, compat := compat, seq := d.nextOp } })

/-- The operation is over: it leaves its Hoard and completes. -/
def Dev.hFinish (d : Dev) (id : Nat) (o : Op) (r : Done) : Dev := (d.hoardForget id).finishOp id o r

/-- An earlier operation on the same Hoard must be performed first (R453). -/
def Dev.hWaits (d : Dev) (h : HOp) : Bool :=
  hOrdered h.kind && d.hrd.ops.any (fun e => e.2.chamber == h.chamber && e.2.dir == h.dir && hOrdered e.2.kind && decide (e.2.seq < h.seq))

/-- RESULT of an operation on a Hoard that it found and that ends unperformed (R440). -/
def HOp.result (h : HOp) : Nat :=
  hResult (if h.kind = 0x33 ∨ h.kind = 0x34 then h.bound else h.view.tokens) (hFlags h.compat) h.view.tag

/-- RESULT of an operation that is stopped (R440). -/
def Dev.hoardRes (d : Dev) (id : Nat) : Nat := match kget d.hrd.ops id with | some h => h.result | none => 0

/-- Performs an admitted ATTEND: it takes idle Masons, or falls back, and keeps to what it has done (R450, R452). -/
def Dev.attendWork (d : Dev) (id : Nat) (o : Op) (h : HOp) (waited : Bool) : Dev :=
  let w := hWho id o
  let fl := hFlags h.compat
  let mode (d : Dev) (k : Nat) : Dev := { d with hrd.ops := kmod d.hrd.ops id (fun h => { h with mode := k }) }
  let run (d : Dev) (m : Eng Done) : Dev := d.turn id o (eDone m h.result) (fun r o d => d.hFinish id o r)
  let ks := d.takeMasons o (d.rf .HRD_CFG_MFIRST o.chamber) (d.rf .HRD_CFG_MCOUNT o.chamber)
  if h.mode = 2 then run d (eSpill w o fl h.bound h.view)
  else if h.mode = 0 && o.nslots = 2 && (waited || d.rf .HRD_CFG_MCOUNT o.chamber == 0) then
    run ((mode d 2).bump .HRD_CNT_FALLBACK o.chamber) (eSpill w o fl h.bound h.view)
  else if ks.isEmpty then d.setOp id { o with phase := .ready }
  else run (mode d 1) (eAttend w o fl h.bound h.view ks)

/-- CREATE with REPLACE in its turn: the Hoard that stands there goes, and a new one is made. A previous owner leaves the making to
DEV (R442). -/
def Dev.replaceWork (d : Dev) (id : Nat) (o : Op) (h : HOp) (hit : Option (Nat × HRec)) : Dev :=
  let w := hWho id o
  let prev := d.atPrev o
  d.turn id o (eDone (match hit with
      | none => do
        if !prev then eCreate w o
        return { result := hResult 0 0 o.hTag }
      | some (slot, r) => do
        if prev then
          eDrop w slot r
          return {}
        eReplace w o slot r h.seq))
    (fun x o d =>
      let d := d.hoardForget id
      match o.reply with
      | some (p, q) => if prev && x.status == 0 then d.notHere id o p q else d.finishOp id o x
      | none => d.finishOp id o x)

/-- Performs an admitted operation in its turn; `waited` says that no attend Mason was taken in time (R452). -/
def Dev.hoardWork (d : Dev) (id : Nat) (o : Op) (h : HOp) (waited : Bool) : Dev :=
  let w := hWho id o
  let fl := hFlags h.compat
  let runOn (d : Dev) (o : Op) (m : Eng Done) (res : Nat) : Dev := d.turn id o (eDone m res) (fun r o d => d.hFinish id o r)
  if o.opcode = 0x34 then runOn d o (eFetchOp w o fl h.bound h.view) h.result
  else if o.opcode = 0x33 then d.attendWork id o h waited
  else if d.hWaits h then d.setOp id { o with phase := .ready }
  else d.turn id o (eTry (eFindHoard w h.key h.fam)) (fun p o d =>
    match p with
    | .error st => d.hFinish id o { status := st, result := h.result }
    | .ok { hit := none, .. } => if o.opcode = 0x30 then d.replaceWork id o h none else d.hFinish id o { result := hResult 0 0 0 }
    | .ok { hit := some (slot, r), .. } =>
      if r.st = 4 then (d.hoardForget id).hForward id o (r.dir % 256) true 3
      else if r.st = 5 then
        match o.reply with
        | some _ => (d.hoardForget id).hDoubt id o
        | none => d.hFinish id o { status := 0x51 }
      else if r.st = 3 then d.setOp id { o with phase := .ready }
      else if o.opcode = 0x30 then d.replaceWork id o h (some (slot, r))
      else if r.dir ≠ h.dir then d.hFinish id o { result := hResult 0 0 0 }
      else
        let res := hResult r.tokens fl r.tag
        match o.opcode with
        | 0x31 => runOn d o (eAppend w o fl slot r) res
        | 0x32 => runOn d o (eSeal w o fl slot r) res
        | 0x35 => runOn d o (do eDrop w slot r; return { result := res }) res
        | _ => runOn d o (ePin w o fl slot r) res)

/-- The owner, or DEV, looks for the Hoard and admits the operation on it, or goes on as R437 says. -/
def Dev.hoardServe (d : Dev) (id : Nat) (o : Op) : Dev :=
  let w := hWho id o
  d.turn id o (eFindHoard w o.hKey o.hFam) (fun p o d =>
    match p.hit with
    | none => d.hAbsent id o
    | some (slot, r) =>
      if r.st = 4 then (if o.acc = 3 then d.hDoubt id o else d.hGone id o (r.dir % 256))
      else if r.st = 5 then d.hDoubt id o
      else
        let m := d.tagMatch o.chamber o.hTag r.tag
        let fl := match m with | some c => hFlags c | none => 0
        let bound := let lim := o.f 60 4; if o.opcode ≠ 0x33 ∨ lim = 0 then r.tokens else min lim r.tokens
        let res := hResult bound fl r.tag
        if o.opcode = 0x30 && !bit (o.f 36 1) 6 then d.finishOp id o { result := hResult r.tokens (fl + 4) r.tag }
        else if o.opcode ≠ 0x30 && m.isNone then d.finishOp id o { result := hResult 0 0 0 }
        else if o.opcode = 0x33 && d.attendBad o r bound then d.finishOp id o { status := 0x7F, result := res }
        else d.turn id o (eTry (eAdmitHoard w id o slot r (m == some true))) (fun x o d =>
          match x with
          | .error st => d.finishOp id o { status := st, result := res }
          | .ok () =>
            match kget d.hrd.ops id with
            | some h => (d.setOp id { o with acc := 4 }).hoardWork id { o with acc := 4 } h false
            | none => d))

/-- One turn of a Hoard operation with the opcode `opc` (R437, R439). -/
def Dev.hoardOp (d : Dev) (id opc : Nat) (waited : Bool := false) : Dev :=
  d.runOp id opc (fun o d =>
    match kget d.hrd.ops id with
    | some h => d.hoardWork id o h waited
    | none =>
      match o.ans.find? (fun a => a.line == hAskLine) with
      | some a => d.finishOp id o { status := if a.status = 0 then 0x51 else a.status }
      | none =>
        if o.acc = 3 ∨ o.acc = 5 then d.hoardServe id o
        else if o.acc ≠ 0 then d.hAbsent id o
        else if hoardBad o then d.finishOp id o { status := 0x7F }
        else if o.reply.isNone && d.rf .HRD_BKT_DEV o.bucket != d.devnum then d.hForward id o (d.rf .HRD_BKT_DEV o.bucket) false 1
        else d.hoardServe id o)

/-- CREATE (R442). -/
def Dev.hoardCreate (d : Dev) (id : Nat) : Dev := d.hoardOp id 0x30
/-- APPEND (R444). -/
def Dev.hoardAppend (d : Dev) (id : Nat) : Dev := d.hoardOp id 0x31
/-- SEAL (R445). -/
def Dev.hoardSeal (d : Dev) (id : Nat) : Dev := d.hoardOp id 0x32
/-- ATTEND (R449-R451). -/
def Dev.hoardAttend (d : Dev) (id : Nat) : Dev := d.hoardOp id 0x33
/-- FETCH (R447). -/
def Dev.hoardFetch (d : Dev) (id : Nat) : Dev := d.hoardOp id 0x34
/-- DROP (R448). -/
def Dev.hoardDrop (d : Dev) (id : Nat) : Dev := d.hoardOp id 0x35
/-- PIN (R448). -/
def Dev.hoardPin (d : Dev) (id : Nat) : Dev := d.hoardOp id 0x36

/-- No attend Mason could be taken within HRD_CFG.WAIT of admission (R452). -/
def Dev.attendWait (d : Dev) (id : Nat) : Dev :=
  match kget d.hrd.ops id with
  | some _ => d.hoardOp id 0x33 true
  | none => d

/-- RELINK (R446): map entries of the Chamber's Hoards in SRC go to DST. -/
def eRelink (w : Who) (src dst : Nat) : Eng Nat := do
  let d ← eGet
  let c := w.chamber
  let a := d.extent src
  let b := d.extent dst
  if a.st ≠ .immutable ∨ extKind src ≠ .t0 ∨ a.chamber ≠ c ∨ b.st ≠ .immutable ∨ b.chamber ≠ c ∨
      (extKind dst ≠ .t1 ∧ extKind dst ≠ .t2) then eFail 0x7F
  let mut n := 0
  if d.rb .HRD_IDX_EN c then
    for s in List.range (d.idxSize c) do
      let r ← eIdx w s
      if r.st ≠ 0 && r.st ≠ 4 then
        for p in List.range r.pages do
          let e ← eEntry w r.dir p
          if e.addr / 2 ^ 28 = d.devnum * 2 ^ 20 + src then
            eSetEntry w r.dir p { e with addr := d.devnum * 2 ^ 48 + dst * 2 ^ 28 + e.addr % 2 ^ 28 }
            /- readers already admitted use the old PA (R453) -/
            eMod (fun d => { d with hrd.ops := d.hrd.ops.map (fun x =>
              if x.2.chamber == c && x.2.dir == r.dir && (kget x.2.old p).isNone then (x.1, { x.2 with old := kput x.2.old p e.addr })
              else x) })
            n := n + 1
  return n

/-- RELINK (R446). -/
def Dev.relink (d : Dev) (id : Nat) : Dev :=
  d.runWhole id 0x37 (fun o => do
    if hoardBad o then eFail 0x7F
    return { count := (← eRelink (hWho id o) (o.f 16 4) (o.f 20 4)) })

/-! ### HREQ and HRSP (R437) -/

/-- A service message of another device arrives on a PEER port for a defined Chamber that the port may carry (06 R219, R221). -/
def Dev.onPeer (d : Dev) (port op : Nat) (m : Msg) (f : Dev → Msg → Dev) : Dev :=
  d.onMortar port op m (fun d m =>
    if d.peerShut port then d
    else if !d.rb .HUB_FP_CFG_PEER port then
      /- a request in PA form on another port (R83, 04 R133) -/
      let d := d.logProtocol port m
      if m.vc = 0 ∧ m.af then d.refuse port m 0x7F else d
    else f d m)

/-- The Chamber of a service request may be served; otherwise the Ack that answers it (06 R221, R243). -/
def Dev.peerChm (d : Dev) (port : Nat) (m : Msg) : Except Dev Unit :=
  let c := m.chamber.toNat
  if !bit (d.rf .HUB_FP_CFG_CHAMBERS port) c || !d.chmDefined c then
    .error ((d.failCheck c 0 m.addr.toNat m.opc m.src.toNat).refuse port m 0x7F)
  else if d.chmState c ≠ 1 then .error (d.refuse port m 0x21)
  else .ok ()

/-- A service request of a peer for a Chamber that may be served. -/
def Dev.onPeerChm (d : Dev) (port op : Nat) (m : Msg) (f : Dev → Msg → Dev) : Dev :=
  d.onPeer port op m (fun d m =>
    match d.peerChm port m with
    | .error d => d
    | .ok () => f d m)

/-- An answer of a peer, for a Chamber that the port binds (R100, 06 R219). -/
def Dev.onPeerAns (d : Dev) (port op : Nat) (m : Msg) (f : Dev → Msg → Dev) : Dev :=
  d.onPeer port op m (fun d m =>
    let c := m.chamber.toNat
    if !bit (d.rf .HUB_FP_CFG_CHAMBERS port) c || !d.chmDefined c then d.failCheck c 0 m.addr.toNat m.opc m.src.toNat
    else f d m)

/-- HREQ arrives: its descriptor runs here for its sender (R437). -/
def Dev.hreq (d : Dev) (port : Nat) (m : Msg) : Dev :=
  d.onPeerChm port 0x54 m (fun d m =>
    let id := d.nextOp
    let b := m.data
    let clock := d.coh.clock + 1
    let o : Op :=
      { chamber := m.chamber.toNat, ring := 64, idx := 0, nslots := 1, opcode := 0, tag := 0, sig := false, fence := false,
        nfz := false, tc := 0, body := b, phase := .ready, admitted := d.gt, part := 0, lines := 0, nfzLines := 0, poison := false,
        fallback := false, unstaged := false, applied := false, ans := [], reply := some (port, m),
        portal := none, acc := 0, acc2 := 0, acc3 := 0, seen := [], order := clock }
    let f := field b 1 1
    let o := { o with opcode := field b 0 1, tag := field b 8 8, nfz := bit f 4, tc := field b 2 1 % 8, nslots := 1 + f % 4 }
    let d := { d with ops := kput d.ops id o, nextOp := id + 1, coh.clock := clock }
    if o.opcode < 0x30 ∨ 0x36 < o.opcode ∨ b.length < 64 * o.nslots then d.endOp id 0x7F 0 0 else d.hoardOp id o.opcode)

/-- HRSP arrives: it completes the operation, ends the search, or names another device (R437, R438). -/
def Dev.hrsp (d : Dev) (port : Nat) (m : Msg) : Dev :=
  d.onPeerAns port 0x55 m (fun d m =>
    match d.findReq m with
    | none => d.bump .MRT_CNT_LATE
    | some q =>
      match q.why with
      | .op id =>
        match kget d.ops id with
        | none => d.dropReq q
        | some o =>
          if q.msg.opc ≠ 0x54 then d
          else
            let d := d.dropReq q
            let o := { o with phase := .ready }
            let a := m.args.toNat
            match a / 2 ^ 16 % 4 with
            | 0 =>
              let fl := field m.data 2 1
              let o := { o with applied := bit fl 1, fallback := bit fl 2, poison := bit fl 3 }
              (d.setOp id o).endOp id (field m.data 0 1) (field m.data 16 8) (field m.data 24 8)
            | 1 =>
              if o.acc = 3 then (d.setOp id o).hDoubt id o
              else if o.acc = 1 then d.hMiss id o
              else (d.setOp id o).hAbsent id o
            | 2 => if o.acc = 3 then d.hDoubt id o else d.hGone id o (a / 2 ^ 24 % 256)
            | _ => d.hDoubt id o
      | _ => d)

/-! ### Handoff (R455, R456) -/

/-- Handoff journal record: its operation id holds h and s (17 R678); payload: key, tag, the other device, Chamber, STATE to
return to, the handoff's number. -/
def hJournalId (key : Bytes) (fam s : Nat) : Nat := hHash key fam + s * 2 ^ 32

def hPayload (key : Bytes) (tag dev c old id : Nat) : Bytes :=
  padTo 16 key ++ leBytes 4 tag ++ leBytes 1 dev ++ leBytes 1 c ++ leBytes 1 old ++ [0] ++ leBytes 8 id

/-- HCTL (R438). -/
def hctlMsg (vc c code s : Nat) (key : Bytes) (tag count : Nat) : Msg :=
  hMsg 0x57 vc c (code * 2 ^ 16 + s % 2 ^ 32 * 2 ^ 32) (padTo 16 key ++ leBytes 4 tag ++ leBytes 4 count ++ zeros 8)

/-- Sends a message of a handoff toward a device. -/
def Dev.hSend (d : Dev) (dev tag : Nat) (m : Msg) : Dev :=
  match d.route (dev * 2 ^ 48) with
  | .away p _ => d.send (.msg p { m with af := true, addr := BitVec.ofNat 56 (dev * 2 ^ 48), tag := BitVec.ofNat 20 tag,
                                         src := 0xFFFF, dst := 0xFFFF })
  | _ => d

/-- `n` bytes cut where the 64-byte lines `bad`, poisoned ones, begin and end: byte, length, poisoned. -/
def hRuns (bad : List Nat) (n : Nat) : List (Nat × Nat × Bool) :=
  (units 64 0 n).foldl (fun l i =>
    let k := min 64 (n - 64 * i)
    let p := bad.contains i
    match l.getLast? with
    | some (a, len, q) => if p == q then l.dropLast ++ [(a, len + k, q)] else l ++ [(64 * i, k, p)]
    | none => [(64 * i, k, p)]) []

/-- Sends one page, or the record as page 0xFFFF_FFFF, in HXFER messages of at most 2,048 slots (R438); byte 9 [0] of slot 0 says that the
bytes of a message are poisoned (log 38). -/
def Dev.hXferPage (d : Dev) (dev tag c s n : Nat) (e : HEnt) (b : Bytes) (bad : List Nat) : Dev :=
  (hRuns bad b.length).foldl (fun d x => (units 65504 0 x.2.1).foldl (fun d u =>
    let off := x.1 + u * 65504
    let part := ((b.drop x.1).take x.2.1 |>.drop (u * 65504)).take 65504
    d.hSend dev tag (hMsg 0x56 0 c (s % 2 ^ 32 * 2 ^ 32)
      (leBytes 4 n ++ leBytes 2 e.klen ++ leBytes 2 e.vlen ++ leBytes 1 (b2n e.cmp) ++ leBytes 1 (b2n x.2.2) ++ zeros 2 ++ leBytes 4 off ++
        zeros 16 ++ part))) d) d

/-- Step 2 and 3 of R455: the record, every page as read, and COMMIT_REQ. -/
def Dev.hXferAll (d : Dev) (id : Nat) (h : Hoff) (r : HRec) (ps : List (Nat × HEnt × Bytes × List Nat)) : Dev :=
  let none_ : HEnt := { addr := 0, cmp := false, klen := 0, vlen := 0 }
  let d := d.hXferPage h.dev id h.chamber h.s 0xFFFFFFFF none_ (hEncode { r with st := h.old }) []
  let d := ps.foldl (fun d p => d.hXferPage h.dev id h.chamber h.s p.1 p.2.1 p.2.2.1 p.2.2.2) d
  { d with hrd.hoffs := kmod d.hrd.hoffs id (fun h => { h with sent := true }) }.hSend h.dev id
    (hctlMsg 0 h.chamber 0 h.s h.key r.tag r.pages)

/-- A handoff of a Hoard starts: PREPARE is journaled (R455). -/
def Dev.hoffStart (d : Dev) (c : Nat) (r : HRec) (dev tries : Nat) : Dev :=
  let id := freshKey d.hrd.hoffs 0
  let h : Hoff := { chamber := c, key := r.key, fam := tagFam r.tag, tag := r.tag, dev := dev, s := u32 (r.hseq + 1), stage := 0, tries := tries,
                    old := r.st, since := d.gt }
  { d with hrd.hoffs := kput d.hrd.hoffs id h }.journal 0x30 (hJournalId r.key (tagFam r.tag) h.s)
    (hPayload r.key r.tag dev c r.st id)

/-- The bucket of a Hoard (R436). -/
def HRec.bucket (r : HRec) : Nat := r.key.foldl (fun x y => Nat.xor x y.toNat) 0

/-- Removes the HANDED records of a bucket, which are kept until PREV_V is cleared (R455). A record that wraps into a gap may be met
only when the slots are passed again. -/
def eBucketClear (w : Who) (b : Nat) : Eng Unit := do
  let n := (← eGet).idxSize w.chamber
  for s in (List.range n).reverse ++ (List.range n).reverse do
    let r ← eIdx w s
    if r.st = 4 ∧ r.bucket = b then
      ePaPut w ((← eGet).idxPa w.chamber s) (zeros 64)
      eClose w n n s 1

/-- A handoff of the Hoard is in progress. -/
def Dev.handing (d : Dev) (c : Nat) (r : HRec) : Bool :=
  d.hrd.hoffs.any (fun h => h.2.chamber == c && h.2.key == r.key && h.2.fam == tagFam r.tag)

/-- What a write of HRD_BKT has the service cores do (R436, R455): `clear` the HANDED records, hand over every Hoard of the bucket. -/
def Dev.bucketScan (d : Dev) (at_ : SvcAt) (c b dev : Nat) (clear move : Bool) : Dev :=
  d.svc at_ (.bucket c b dev clear move) c (fun w => do
    if clear then eBucketClear w b
    let rs ← if move then (List.range ((← eGet).idxSize c)).mapM (fun s => eIdx w s) else pure []
    return fun d => (rs.filter (fun r => (r.st == 1 || r.st == 2) && r.bucket == b)).foldl (fun d r =>
      if d.handing c r then d else d.hoffStart c r dev 0) d)

/-- A write of HRD_BKT (R436): a DEV that names another device starts a handoff of every Hoard of the bucket held here. -/
def Dev.bucketWrite (d : Dev) (c b dev prev : Nat) (prevV : Bool) : Dev :=
  let i := c * 256 + b
  let was := d.rf .HRD_BKT_DEV i
  let d := ((d.wf .HRD_BKT_DEV i dev).wf .HRD_BKT_PREV i prev).wb .HRD_BKT_PREV_V i prevV
  let move := dev != was && dev != d.devnum
  if d.rb .HRD_IDX_EN c && (!prevV || move) then d.bucketScan none c b dev (!prevV) move else d

/-- Ends a handoff in ABORT at its owner: ABORT(s) is journaled (R456). -/
def Dev.hoffAbort (d : Dev) (id : Nat) (h : Hoff) : Dev :=
  { d with hrd.hoffs := kput d.hrd.hoffs id { h with stage := 3 } }.journal 0x34 (hJournalId h.key h.fam h.s)
    (hPayload h.key h.tag h.dev h.chamber h.old id)

/-- Reads every page of a Hoard being handed over, and sends them (R455). -/
def Dev.handOut (d : Dev) (at_ : SvcAt) (k : Nat) : Dev :=
  match kget d.hrd.hoffs k with
  | none => d
  | some h =>
    if h.stage ≠ 1 then d
    else d.svc at_ (.handOut k) h.chamber (fun w => do
      match (← eFindHoard w h.key h.fam).hit with
      | none => return id
      | some (_, r) =>
        let ps ← (List.range r.pages).mapM (fun n => do
          let e ← eEntry w r.dir n
          let k := if e.cmp then e.vAt + 8 * e.vlen else 65536
          let ls ← ePaLines w e.addr k
          return (n, e, ((ls.map (fun l => l.2.1)).flatten).take k,
            (ls.filter (fun l => l.2.2)).map (fun l => (l.1 - e.addr) / 64)))
        return fun d => d.hXferAll k h r ps)

/-- PREPARE(s) is journaled: the record becomes HANDING and everything is sent (R455). -/
def Dev.hoffPrepared (d : Dev) (at_ : SvcAt) (e : JRec) (k : Nat) : Dev :=
  match kget d.hrd.hoffs k with
  | none => d
  | some h =>
    if h.stage ≠ 0 then d
    else d.svc at_ (.commit e) h.chamber (fun w => do
      match (← eFindHoard w h.key h.fam).hit with
      | some (slot, r) =>
        if r.st ≠ 1 ∧ r.st ≠ 2 then return fun d => d.hoffAbort k h
        eIdxPut w slot { r with st := 3 }
        return fun d => { d with hrd.hoffs := kput d.hrd.hoffs k { h with stage := 1, old := r.st } }.handOut none k
      | none => return fun d => d.hoffAbort k h)

/-- RELEASE(s) is journaled: the record is HANDED to B, its pages are freed (R455). -/
def Dev.hoffReleased (d : Dev) (at_ : SvcAt) (e : JRec) (k : Nat) : Dev :=
  match kget d.hrd.hoffs k with
  | none => d
  | some h =>
    d.svc at_ (.commit e) h.chamber (fun w => do
      let ps ← match (← eFindHoard w h.key h.fam).hit with
        | some (slot, r) => do
          let ps ← ePagesOf w r
          eIdxPut w slot { r with st := 4, dir := h.dev, ops := 0, pages := 0 }
          pure (some (r.dir, ps))
        | none => pure none
      return fun d =>
        let d := { d with hrd.hoffs := kdel d.hrd.hoffs k }.bump .HRD_CNT_HANDOFF h.chamber
        match ps with
        | some (dir, ps) => d.freePages h.chamber dir ps
        | none => d)

/-- ABORT(s) is journaled: the Hoard stays as it was; the handoff is retried twice more (R456). -/
def Dev.hoffAborted (d : Dev) (at_ : SvcAt) (e : JRec) (k : Nat) : Dev :=
  match kget d.hrd.hoffs k with
  | none => d
  | some h =>
    d.svc at_ (.commit e) h.chamber (fun w => do
      let back ← match (← eFindHoard w h.key h.fam).hit with
        | some (slot, r) => do
          let was := r.st = 3 ∨ r.st = 5
          let r := if was then { r with st := h.old } else r
          if was then eIdxPut w slot r
          pure (some r)
        | none => pure none
      return fun d =>
        let d := { d with hrd.hoffs := kdel d.hrd.hoffs k }.bump .HRD_CNT_HOFF_ABORT h.chamber
        match back with
        | some r => if h.tries < 2 ∧ (r.st = 1 ∨ r.st = 2) then d.hoffStart h.chamber r h.dev (h.tries + 1) else d
        | none => d)

/-! #### At the receiver -/

/-- What a sender's handoff has put aside. -/
def Dev.asideOf (d : Dev) (port : Nat) (m : Msg) : Option (Nat × Aside) :=
  d.hrd.aside.find? (fun a => a.2.port == port && a.2.tag == m.tag.toNat && a.2.hseq == m.args.toNat / 2 ^ 32 &&
    a.2.chamber == m.chamber.toNat)

/-- HXFER arrives and is held aside (R455). -/
def Dev.hxfer (d : Dev) (port : Nat) (m : Msg) : Dev :=
  d.onPeerChm port 0x56 m (fun d m =>
    let n := field m.data 0 4
    let off := field m.data 12 4
    let b := m.data.drop 32
    let (k, a) : Nat × Aside := match d.asideOf port m with
      | some x => x
      | none => (freshKey d.hrd.aside 0,
          { port := port, tag := m.tag.toNat, chamber := m.chamber.toNat, hseq := m.args.toNat / 2 ^ 32, hrec := none, pages := [],
            built := none })
    let a := if n = 0xFFFFFFFF then { a with hrec := some (b.take 64) }
      else
        let fresh : APage := { n := n, cmp := bit (field m.data 8 1) 0, klen := field m.data 4 2, vlen := field m.data 6 2, bytes := [], got := 0 }
        let p := (a.pages.find? (fun p => p.n == n)).getD fresh
        let p := { p with bytes := putBytes (padTo (max p.bytes.length (off + b.length)) p.bytes) off b, got := p.got + b.length,
                          bad := if bit (field m.data 9 1) 0 then p.bad ++ units 64 off b.length else p.bad }
        { a with pages := a.pages.filter (fun q => q.n != n) ++ [p] }
    { d with hrd.aside := kput d.hrd.aside k a })

/-- Answers HCTL on the port it came from. -/
def Dev.hAnswer (d : Dev) (port : Nat) (m : Msg) (code : Nat) : Dev :=
  d.send (.msg port { hctlMsg 2 m.chamber.toNat code (m.args.toNat / 2 ^ 32) (m.data.take 16) (field m.data 16 4) 0 with
    tag := m.tag, dst := m.src, src := m.dst, addr := m.addr, tc := m.tc })

/-- The record a message's handoff would leave in the journal, and the message to answer when it commits. -/
def Dev.hJournalB (d : Dev) (port typ code : Nat) (m : Msg) (k : Nat) : Dev :=
  let key := m.data.take 16
  let tag := field m.data 16 4
  let ans := { hctlMsg 2 m.chamber.toNat code (m.args.toNat / 2 ^ 32) key tag 0 with
    tag := m.tag, dst := m.src, src := m.dst, addr := m.addr, tc := m.tc }
  d.journal typ (hJournalId key (tagFam tag) (m.args.toNat / 2 ^ 32)) (hPayload key tag (m.src.toNat / 256) m.chamber.toNat 0 k)
    [.msg port ans]

/-- Puts the pages of a handoff into the pool of their new owner: the directory (R434, R455). -/
def eTakePages (w : Who) (count : Nat) (ps : List APage) : Eng Nat := do
  let dir ← eAlloc w
  let maps ← (List.range ((count + 4095) / 4096)).mapM (fun i => do
    let a ← eAlloc w
    ePaPut w (dir + 8 * i) (leBytes 8 a)
    return a)
  for p in ps do
    let a ← eAlloc w
    ePaWrite w (tileLines ((units 64 0 p.bytes.length).map (fun i => (a + 64 * i, (p.bytes.drop (64 * i)).take 64, p.bad.contains i))))
    ePaPut w (maps.getD (p.n / 4096) 0 + 16 * (p.n % 4096)) (hEntBytes { addr := a, cmp := p.cmp, klen := p.klen, vlen := p.vlen })
  return dir

/-- Every page of a handoff is here, whole. -/
def Aside.whole (a : Aside) (count : Nat) : Bool :=
  a.pages.length == count &&
    a.pages.all (fun p => decide (p.n < count) && p.got == (if p.cmp then (8 * p.klen + 63) / 64 * 64 + 8 * p.vlen else 65536))

/-- The Ledger, or a record on its way to it, holds an outcome of a receiver's handoff (R455, R456). -/
def Dev.hOutcome (d : Dev) (m : Msg) (typ : Nat) : Option Bool :=
  let jid := hJournalId (m.data.take 16) (tagFam (field m.data 16 4)) (m.args.toNat / 2 ^ 32)
  if d.led.journal.any (fun r => r.id == jid && r.typ == typ) then some true
  else if d.led.writes.any (fun w => w.entry.id == jid && w.entry.typ == typ) then some false
  else none

/-- COMMIT_REQ at the receiver (R455): with every page here and room for them, COMMIT is journaled; otherwise REFUSE. Where an outcome is
journaled already it stays (R456). -/
def Dev.commitReq (d : Dev) (at_ : SvcAt) (port : Nat) (m : Msg) : Dev :=
  let c := m.chamber.toNat
  let key := m.data.take 16
  let fam := tagFam (field m.data 16 4)
  let count := field m.data 20 4
  if d.hOutcome m 0x33 = some true then d.hAnswer port m 2
  else if d.hOutcome m 0x31 = some true then d.hAnswer port m 1
  else if (d.hOutcome m 0x33).isSome || (d.hOutcome m 0x31).isSome then d
  else match d.asideOf port m with
  | none => d.hJournalB port 0x33 2 m 0
  | some (k, a) =>
    let refuse (d : Dev) : Dev := { d with hrd.aside := kdel d.hrd.aside k }.hJournalB port 0x33 2 m 0
    match a.hrec with
    | none => refuse d
    | some b =>
      let r := hDecode b
      if !a.whole count || count != r.pages || d.rf .TLY_STS_SELF == 2 || !d.chmDefined c then refuse d
      else d.svc at_ (.msg port m) c (fun w => eWhole (do
        let f ← eFindHoard w key fam
        let d ← eGet
        let slotOk := d.rb .HRD_IDX_EN c && (f.empty.isSome || (match f.hit with | some (_, x) => x.st == 4 || x.hseq < a.hseq | none => false))
        let free ← eTry (eReserved w [b])
        if !slotOk || !free.isOk || decide (d.poolFree c < 1 + (count + 4095) / 4096 + count) then return refuse
        let dir ← eTakePages w count a.pages
        let r := { r with dir := dir, hseq := a.hseq, ops := 0, packed := false }
        return fun d => { d with hrd.aside := kput d.hrd.aside k { a with built := some (hEncode r) } }.hJournalB port 0x31 1 m k))

/-- HCTL COMMIT_REQ arrives (R455). -/
def Dev.hctlCommitReq (d : Dev) (port : Nat) (m : Msg) : Dev := d.onPeerChm port 0x57 m (fun d m => d.commitReq none port m)

/-- COMMIT(s) is journaled at the receiver: the record is installed (R455). -/
def Dev.hoffInstalled (d : Dev) (at_ : SvcAt) (e : JRec) (k : Nat) : Dev :=
  match kget d.hrd.aside k with
  | none => d
  | some a =>
    match a.built with
    | none => { d with hrd.aside := kdel d.hrd.aside k }
    | some b =>
      d.svc at_ (.commit e) a.chamber (fun w => do
        let r := hDecode b
        let f ← eFindHoard w r.key (tagFam r.tag)
        match f.hit, f.empty with
        | some (s, _), _ => eIdxPut w s r
        | none, some s => eIdxPut w s r
        | none, none => pure ()
        return fun d => { d with hrd.aside := kdel d.hrd.aside k })

/-- HCTL COMMITTED arrives at the owner, which journals RELEASE (R455). -/
def Dev.hctlCommitted (d : Dev) (port : Nat) (m : Msg) : Dev :=
  d.onPeerAns port 0x57 m (fun d m =>
    match kget d.hrd.hoffs m.tag.toNat with
    | some h =>
      if h.s = m.args.toNat / 2 ^ 32 ∧ (h.stage = 1 ∨ h.stage = 2) then
        { d with hrd.hoffs := kput d.hrd.hoffs m.tag.toNat { h with stage := 3 } }.journal 0x32 (hJournalId h.key h.fam h.s)
          (hPayload h.key h.tag h.dev h.chamber h.old m.tag.toNat)
      else d
    | none => d)

/-- HCTL REFUSED arrives at the owner, which journals ABORT (R456). -/
def Dev.hctlRefused (d : Dev) (port : Nat) (m : Msg) : Dev :=
  d.onPeerAns port 0x57 m (fun d m =>
    match kget d.hrd.hoffs m.tag.toNat with
    | some h => if h.s = m.args.toNat / 2 ^ 32 ∧ (h.stage = 1 ∨ h.stage = 2) then d.hoffAbort m.tag.toNat h else d
    | none => d)

/-- HCTL QUERY arrives (R456): a commit is reported; without one, REFUSE is journaled first and nothing can commit later. -/
def Dev.hctlQuery (d : Dev) (port : Nat) (m : Msg) : Dev :=
  d.onPeerChm port 0x57 m (fun d m =>
    if d.hOutcome m 0x31 = some true then d.hAnswer port m 1
    else if (d.hOutcome m 0x31).isSome then d
    else
      let d := match d.asideOf port m with | some (k, _) => { d with hrd.aside := kdel d.hrd.aside k } | none => d
      if d.hOutcome m 0x33 = some true then d.hAnswer port m 2
      else if (d.hOutcome m 0x33).isSome then d
      else d.hJournalB port 0x33 2 m 0)

/-- HCTL ABORT arrives: the receiver discards what it holds, unless it has committed (R456). -/
def Dev.hctlAbort (d : Dev) (port : Nat) (m : Msg) : Dev :=
  d.onPeerChm port 0x57 m (fun d m =>
    match d.asideOf port m with
    | some (k, a) => if a.built.isSome then d else { d with hrd.aside := kdel d.hrd.aside k }
    | none => d)

/-- A handoff has not reached its release in time (R456): before COMMIT_REQ it aborts, after it the owner queries. -/
def Dev.handoffTimeout (d : Dev) (id : Nat) : Dev :=
  match kget d.hrd.hoffs id with
  | none => d
  | some h =>
    match h.stage, h.sent with
    | 0, _ | 1, false => (d.hSend h.dev id (hctlMsg 0 h.chamber 4 h.s h.key h.tag 0)).hoffAbort id h
    | 1, true => { d with hrd.hoffs := kput d.hrd.hoffs id { h with stage := 2, since := d.gt } }.hSend h.dev id
             (hctlMsg 0 h.chamber 3 h.s h.key h.tag 0)
    | _, _ => d

/-- The owner of a Hoard asks again, or gives up (R456): once HRD_HOFF_TMO is over, the record becomes DOUBT. -/
def Dev.handoffAsk (d : Dev) (at_ : SvcAt) (k : Nat) : Dev :=
  match kget d.hrd.hoffs k with
  | none => d
  | some h =>
    if h.stage ≠ 2 then d
    else d.svc at_ (.query k) h.chamber (fun w => do
      match (← eFindHoard w h.key h.fam).hit with
      | none => return fun d => { d with hrd.hoffs := kdel d.hrd.hoffs k }
      | some (slot, r) =>
        let d ← eGet
        let units_ := max 1 ((r.pages * 65536 + 2 ^ 28 - 1) / 2 ^ 28)
        if d.rf .HRD_HOFF_TMO_TMO * units_ * 1000000 ≤ d.gt - h.since then
          eIdxPut w slot { r with st := 5 }
          return fun d => { d with hrd.hoffs := kdel d.hrd.hoffs k }
        return fun d => d.hSend h.dev k (hctlMsg 0 h.chamber 3 h.s h.key h.tag 0))

/-- 1 ms has passed since the last QUERY (R456). -/
def Dev.handoffQuery (d : Dev) (id : Nat) : Dev := d.handoffAsk none id

/-- What follows the commit of a handoff record (R455, R456). -/
def Dev.hoffCommitted (d : Dev) (at_ : SvcAt) (e : JRec) : Dev :=
  let k := field e.payload 24 8
  match e.typ with
  | 0x30 => d.hoffPrepared at_ e k
  | 0x31 => d.hoffInstalled at_ e k
  | 0x32 => d.hoffReleased at_ e k
  | 0x34 => d.hoffAborted at_ e k
  | _ => d

end Sys2Proof.Machine
end

