-- ==== Sys2Proof/Machine/Tables.lean ====
section
/-!
DEFINITION. Embedding tables: the Keystone, row maps, sketches, lookups and scatter-adds and their exchange between members
(12 R467-R480, R487-R502, R506, R507).
-/

namespace Sys2Proof.Machine

/-! ### The Keystone (R467-R472, R478) -/

/-- A Keystone (R469). -/
structure KS where
  ver : Nat
  alt : Nat
  flags : Nat
  fmt : Nat
  span : Nat
  rowb : Nat
  boot : Nat
  rows : Nat
  altRows : Nat
  readers : Nat
  base : Nat
  altBase : Nat
  shard : Nat
  rowmap : Nat
  altReaders : Nat
  flip : Nat
deriving DecidableEq, Repr

def ksOf (b : Bytes) : KS :=
  { ver := field b 0 3, alt := field b 3 3, flags := field b 6 1, fmt := field b 8 1 % 16, span := field b 9 1 % 32,
    rowb := field b 10 2 % 4096 + 1, boot := field b 12 2, rows := field b 16 5, altRows := field b 21 5, readers := field b 28 4,
    base := field b 32 5 % 2 ^ 36, altBase := field b 37 5 % 2 ^ 36, shard := field b 42 5 % 2 ^ 36, rowmap := field b 47 5 % 2 ^ 36,
    altReaders := field b 52 4, flip := field b 56 8 }

def ksBytes (k : KS) : Bytes :=
  leBytes 3 k.ver ++ leBytes 3 k.alt ++ leBytes 1 k.flags ++ [0] ++ leBytes 1 k.fmt ++ leBytes 1 k.span ++ leBytes 2 (k.rowb - 1) ++
    leBytes 2 k.boot ++ [0, 0] ++ leBytes 5 k.rows ++ leBytes 5 k.altRows ++ [0, 0] ++ leBytes 4 k.readers ++ leBytes 5 k.base ++
    leBytes 5 k.altBase ++ leBytes 5 k.shard ++ leBytes 5 k.rowmap ++ leBytes 4 k.altReaders ++ leBytes 8 k.flip

def KS.active (k : KS) : Bool := bit k.flags 0
def KS.prevV (k : KS) : Bool := bit k.flags 1
def KS.nextV (k : KS) : Bool := bit k.flags 2
def KS.train (k : KS) : Bool := bit k.flags 3

/-- Version `u` is after `v` (R478). -/
def verAfter (u v : Nat) : Bool := decide (1 ≤ subMod 24 u v ∧ subMod 24 u v < 2 ^ 23)

/-- Bytes of a row element (R469). -/
def tblEb (fmt : Nat) : Nat := match fmt with | 0 => 4 | 1 => 2 | 2 => 2 | _ => 1

/-- Elements of a row (R472). -/
def KS.elems (k : KS) : Nat := k.rowb / tblEb k.fmt

/-- The pitch P (R472). -/
def rowPitch (rowb : Nat) : Nat :=
  if rowb ≤ 8 then 8 else if rowb ≤ 16 then 16 else if rowb ≤ 32 then 32 else (rowb + 63) / 64 * 64

/-- A format of R469. -/
def tblFmtOk (f : Nat) : Bool := f ≤ 4 || f == 0xA

/-- Boot generation (15 R616). -/
def Dev.bootGen (d : Dev) : Nat := d.rf .SEC_BOOT_BOOT

/-- Reads the Keystone of this device as an engine, with the repair of R471. -/
def eKs (w : Who) (pa : Nat) : Eng KS := do
  let (b, p) ← ePaRead w pa 64
  if p then eFail 0x30
  let k := ksOf b
  let g := (← eGet).bootGen
  if k.boot = g then return k
  let k := { k with readers := 0, altReaders := 0, boot := g }
  ePaPut w pa (ksBytes k)
  return k

/-- Writes a Keystone of this device, in one line write. -/
def eKsPut (w : Who) (pa : Nat) (k : KS) : Eng Unit := ePaPut w pa (ksBytes k)

/-- PA of a member's Keystone (R467); an unmapped page faults. -/
def eKsPa (w : Who) (ks dev : Nat) : Eng Nat := do
  match (← eXlate { w with nfz := false } (ks + dev * 0x10000) false) with
  | some x => return x.pa
  | none => eFail 0x7F

/-- PA of this device's Keystone of a table, which is homed here (R467). -/
def eOwnKs (w : Who) (ks : Nat) : Eng Nat := do
  let d ← eGet
  let pa ← eKsPa w ks d.devnum
  match d.localLine pa with
  | some _ => return pa
  | none => eCheck w ks

/-- The counts of readers of a version changed (R479, R480). -/
def KS.count (k : KS) (ver : Nat) (up : Bool) : KS :=
  let f (n : Nat) : Nat := if up then u32 (n + 1) else n - 1
  if k.ver = ver then { k with readers := f k.readers } else if k.alt = ver then { k with altReaders := f k.altReaders } else k

/-- Gather units of a Chamber (R487). -/
def Dev.hasXu (d : Dev) (c : Nat) : Bool := match kget d.unitsOf c with | some u => u.1 != 0 | none => false

/-- The lowest gather unit of a Chamber, which carries its table work. -/
def Dev.xuOf (d : Dev) (c : Nat) : Nat :=
  match kget d.unitsOf c with | some u => ((List.range 32).find? (fun i => bit u.1 i)).getD 0 | none => 0

/-- A table operation as a requester. -/
def tblWho (d : Dev) (id : Nat) (o : Op) : Who := opWhoOf id o (16 + d.xuOf o.chamber) (some (144 + d.xuOf o.chamber))

/-! ### Row maps (R475-R477) -/

/-- A row-map entry (R476). -/
structure REnt where
  idx : Nat
  ver : Nat
  kind : Nat
  dev : Nat
  epoch : Nat
  flip : Nat
deriving DecidableEq, Repr

def rEnt (b : Bytes) : REnt :=
  { idx := field b 0 8, ver := field b 8 3, kind := field b 11 1 % 8, dev := field b 12 1, epoch := field b 13 1, flip := field b 16 8 }

def rEntBytes (e : REnt) : Bytes :=
  leBytes 8 e.idx ++ leBytes 3 e.ver ++ leBytes 1 e.kind ++ leBytes 1 e.dev ++ leBytes 1 e.epoch ++ [0, 0] ++ leBytes 8 e.flip ++ zeros 8

/-- The entry is live (R476). -/
def REnt.live (e : REnt) (k : KS) : Bool :=
  match e.kind with
  | 0 | 7 => false
  | 1 => e.ver == k.ver || (e.ver == k.alt && k.prevV)
  | _ => true

/-- log2 of the entries of the row map at a CVA page. -/
def eRowLog (w : Who) (rm : Nat) : Eng Nat := do return (← eNum w (rm * 65536) 1) % 32

/-- CVA of the row that entry `n` holds (R475). -/
def rowData (rm k n p : Nat) : Nat := rm * 65536 + 64 + 2 ^ (k + 5) + n * p

/-- What a probe of R477 finds: the first live entry for the index, the first slot that counts as EMPTY, log2 of the entries. -/
structure RProbe where
  hit : Option (Nat × REnt)
  free : Option Nat
  log : Nat
deriving DecidableEq, Repr

/-- The 16 slots of an index, from the `j`-th on. -/
def eRowProbe (w : Who) (rm : Nat) (k : KS) (i log : Nat) : Nat → Nat → Option Nat → Eng RProbe
  | 0, _, free => return { hit := none, free := free, log := log }
  | fuel + 1, j, free => do
    let s := (crc32c (leBytes 8 i) + j) % 2 ^ log
    let (b, p) ← eRead w (rm * 65536 + 64 + 32 * s) 32
    if p then eFail 0x30
    let e := rEnt b
    if e.live k && e.idx == i then return { hit := some (s, e), free := free, log := log }
    eRowProbe w rm k i log fuel (j + 1) (if !e.live k && free.isNone then some s else free)

/-- The search of R477; a member with no row map has no entry and no room. -/
def eRowFind (w : Who) (k : KS) (i : Nat) : Eng RProbe := do
  if k.rowmap = 0 then return { hit := none, free := none, log := 0 }
  eRowProbe w k.rowmap k i (← eRowLog w k.rowmap) 16 0 none

/-- Writes entry `n`. -/
def eRowPut (w : Who) (rm n : Nat) (e : REnt) : Eng Unit := eWrite w (rm * 65536 + 64 + 32 * n) (rEntBytes e)

/-! ### Sketches (R501, R502) -/

/-- Counts an index that a gather unit has read, in slot `s`. -/
def Dev.sketchCount (d : Dev) (s c ks ver i : Nat) : Dev :=
  let k := sget { counts := [], seen := 0, posted := [] } d.tbl.sketch s
  let n := d.rf .TBL_HOT_CFG_SAMPLE_LOG2
  let seen := k.seen + 1
  let put (d : Dev) (k : Sketch) : Dev := { d with tbl.sketch := kput d.tbl.sketch s k }
  if seen % 2 ^ n ≠ 0 then put d { k with seen := seen }
  else
    let cols := (List.range 4).map (fun r => r * 2048 + Config.sketchHash r i % 2048)
    let est (m : Map Nat) : Nat := (cols.map (fun x => sget 0 m x)).foldl min 65535
    let counts := cols.foldl (fun m x => sput 0 m x (satAdd 16 (sget 0 m x) 1)) k.counts
    let e := est counts
    let k' : Sketch := { k with counts := counts, seen := seen }
    let late := d.rf .TBL_HOT_CFG_DECAY * 1000000
    if e < d.rf .TBL_HOT_CFG_THRESH ∨ d.rf .TBL_HOT_CFG_THRESH ≤ est k.counts ∨
        (k.posted.any (fun p => p.1 == i && decide (d.gt < p.2 + late))) = true ∨ d.rb .TBL_HOT_BASE_EN c = false then put d k'
    else
      let tail := d.rf .TBL_HOT_PTR_TAIL c
      if 4096 ≤ subMod 32 tail (d.rf .TBL_HOT_PTR_HEAD c) then (put d k').bump .TBL_HOT_DROP_DROPS c
      else
        let posted := (k.posted.filter (fun p => p.1 != i)) ++ [(i, d.gt)]
        let d := put d { k' with posted := posted.drop (posted.length - 1024) }
        let b := padTo 32 (leBytes 8 i ++ leBytes 8 ks ++ leBytes 3 ver ++ [0] ++ leBytes 4 (e * 2 ^ n) ++ leBytes 4 d.stamp)
        d.post c true b

/-- Counts an index at every enabled slot that names the table of the Keystone at a PA (R501); a slot whose table is not mapped names
none. -/
def eSketch (w : Who) (pa ver i : Nat) : Eng Unit := do
  for s in List.range 8 do
    let d ← eGet
    if d.rb .TBL_SKETCH_EN s && d.rf .TBL_SKETCH_CHAMBER s == w.chamber then
      let ks := d.rf .TBL_SKETCH_TABLE s * 2 ^ 24
      match (← eFind w (ks + d.devnum * 0x10000) false) with
      | .ok x => if x.pa = pa then eMod (fun d => d.sketchCount s w.chamber ks ver i)
      | .error _ => pure ()

/-- Every sketch counter is halved (R501). -/
def Dev.sketchDecay (d : Dev) : Dev :=
  { d with tbl.sketch := d.tbl.sketch.map (fun e =>
      (e.1, { e.2 with counts := (e.2.counts.map (fun x => (x.1, x.2 / 2))).filter (fun x => x.2 != 0) })) }

/-- A write of TBL_SKETCH clears the slot's sketch and filter (R512). -/
def Dev.sketchWrite (d : Dev) (s c table : Nat) (en : Bool) : Dev :=
  let d := { d with tbl.sketch := kdel d.tbl.sketch s }
  ((d.wb .TBL_SKETCH_EN s en).wf .TBL_SKETCH_TABLE s table).wf .TBL_SKETCH_CHAMBER s c

/-! ### Where an index is read (R473, R474, R491, R492, R507) -/

/-- What becomes of an entry: the CVA of its row here, from a replica, of a row being moved; another member with its epoch;
dropped; bounced; forwarded to the new owner; it waits for a flip. -/
inductive TWay where
  | here (addr : Nat) (replica : Bool) (move : Option Nat)
  | away (dev epoch : Nat)
  | drop
  | bounce
  | fwd (move : Nat)
  | wait
deriving DecidableEq, Repr

/-- The move of a row at this device that has left its first stages. -/
def Dev.moveOf (d : Dev) (pa i : Nat) : Option (Nat × Move) :=
  d.tbl.moves.find? (fun m => m.2.pa == pa && m.2.idx == i && decide (2 ≤ m.2.stage))

/-- Epoch `a` is older than `b`, modulo 256. -/
def epochOlder (a b : Nat) : Bool := serialAfter 8 b a

/-- The shard-map entry of an index: owner, VALID, SLOT (R473). -/
def eShard (w : Who) (t : TWork) (i : Nat) : Eng (Nat × Bool × Nat) := do
  let v ← eNum w (t.shard * 65536 + 4 * (i / 2 ^ t.span)) 4
  return (v % 256, bit v 8, v / 512)

/-- Resolves an entry at its origin, or at an owner (R491, R492, R507). -/
def eWay (w : Who) (t : TWork) (k : KS) (srv : Bool) (e : TEnt) : Eng TWay := do
  let d ← eGet
  let i := e.idx
  let p := rowPitch t.rowb
  if 2 ^ 63 ≤ i ∨ t.rows ≤ i then return .drop
  let (dev, valid, slot) ← eShard w t i
  if !valid then return .drop
  let r ← eRowFind w k i
  let prime := t.base * 65536 + (slot * 2 ^ t.span + i % 2 ^ t.span) * p
  let here : TWay := if dev = d.devnum then .here prime false none else if srv then .drop else .away dev 0
  match r.hit with
  | none => return here
  | some (n, x) =>
    let data := rowData k.rowmap r.log n p
    match x.kind with
    | 1 => return if !srv && !t.grad && x.ver == t.ver then .here data true none else here
    | 2 => return if !srv then .away x.dev x.epoch else if dev = d.devnum then .bounce else .drop
    | 3 => return .here data false none
    | 4 =>
      if !srv then return .away x.dev x.epoch
      match d.moveOf t.pa i with
      | some (m, mv) =>
        if mv.epoch = x.epoch && epochOlder e.epoch x.epoch && decide (d.gt < x.flip + d.rf .TBL_TIME_MOVE_GRACE w.chamber * 1000) then return .fwd m
        else return .bounce
      | none => return .bounce
    | 5 =>
      let at_ := if dev = d.devnum ∧ x.epoch = 0 then prime else data
      match d.moveOf t.pa i with
      | some (m, mv) => return if mv.stage = 2 then .here at_ false (some m) else if t.grad then .wait else .here at_ false none
      | none => return .here at_ false none
    | _ => return here

/-! ### Reading and updating rows (R493-R495, R500) -/

/-- The elements of a row as exact values. -/
def rowVals (fmt elems : Nat) (b : Bytes) : List FV := (List.range elems).map (fun e => valOf fmt (elemAt fmt b e))

/-- A row's bytes and whether a line of it is poisoned. -/
def eRow (w : Who) (addr n : Nat) : Eng (Bytes × Bool) := eRead w addr n

/-- r ← fmt(fp32(r) + fp32(g)) (R500, 05 R206). -/
def addGrad (fmt r g : Nat) : Nat :=
  if fmt = 1 then encodeF bf16 false (decodeF fp32 (fadd32 (r % 65536 * 65536) g)) else fadd32 r g

/-- Adds a gradient row to a row (R500): a poisoned gradient or row leaves every line of the row poisoned. -/
def eAddRow (w : Who) (addr fmt n : Nat) (grad : List Nat) (gp : Bool) : Eng Unit := do
  let (b, p) ← eRow w addr n
  let out := (grad.mapIdx (fun e g => leBytes (tblEb fmt) (addGrad fmt (elemAt fmt b e) g))).flatten
  eWriteMarked w addr (padTo n out) (fun _ => p || gp)

/-- What one turn over a work's entries gives. -/
structure TStep where
  t : TWork
  outs : List (Nat × TEnt)
  logs : List (Nat × TEnt × Bool)
  sums : List (Nat × Nat × Bool × List FV)
  later : List TEnt

/-- Sees to one entry. -/
def eEntry1 (w : Who) (k : KS) (srv : Bool) (s : TStep) (e : TEnt) : Eng TStep := do
  let t := s.t
  match (← eWay w t k srv e) with
  | .drop => return { s with t := { t with drops := t.drops + 1 } }
  | .away dev ep => return { s with outs := s.outs ++ [(dev, { e with epoch := ep })] }
  | .bounce =>
    eMod (fun d => d.bump .TBL_CNT_REROUTE w.chamber)
    return { s with t := { t with bounce := t.bounce ++ [e] } }
  | .fwd m =>
    eMod (fun d => d.bump .TBL_CNT_FORWARD w.chamber)
    return { s with logs := s.logs ++ [(m, e, true)] }
  | .wait => return { s with later := s.later ++ [e] }
  | .here addr rep mv =>
    eSketch w t.pa k.ver e.idx
    if t.grad then
      eAddRow w addr t.fmt t.rowb e.grad e.gp
      ePoison e.gp
      return { s with t := { t with applied := t.applied + 1 },
                      logs := s.logs ++ (match mv with | some m => [(m, e, false)] | none => []) }
    let (b, p) ← eRow w addr t.rowb
    return { s with t := { t with applied := t.applied + 1, replicas := t.replicas + b2n rep,
                                  kept := kput t.kept e.bag (sget 0 t.kept e.bag + 1),
                                  poison := if p && !t.poison.contains e.bag then t.poison ++ [e.bag] else t.poison },
                    sums := s.sums ++ [(e.bag, e.w, p, rowVals t.fmt (t.rowb / tblEb t.fmt) b)] }

/-- Adds a partial into a bag's FP32 sums. -/
def TWork.add (t : TWork) (bag : Nat) (p : List Nat) : TWork :=
  { t with acc := (p.mapIdx (fun e v => (bag * 4096 + e, v))).foldl (fun m x =>
      kput m x.1 (match kget m x.1 with | some o => fadd32 o x.2 | none => x.2)) t.acc }

/-- Adds the rows read here, bag by bag, in no fixed order (R375, R493). -/
def eSums (s : TStep) : Eng TWork := do
  let bags := (s.sums.map (fun x => x.1)).eraseDups
  let mut t := s.t
  for b in bags do
    let n := (← eGet).fresh
    eMod Dev.drawn
    let rows := s.sums.filter (fun x => x.1 == b)
    let one := decodeF fp32
    let p := (List.range (t.rowb / tblEb t.fmt)).map (fun e =>
      sumAcc n (e * 2 ^ 24) (rows.mapIdx (fun j x =>
        let v := x.2.2.2.getD e (.fin false 0 0)
        if x.2.1 = 0x3F800000 then v else maybe32 n (e * 2 ^ 24 + 2 ^ 23 + j) (mulF (one x.2.1) v))))
    t := t.add b p
  return t

/-- One turn over every entry still to see to; where the sub-batches go. -/
def eTblGo (w : Who) (t : TWork) (srv : Bool) : Eng (TStep × TWork × List (Nat × Nat) × List (Nat × Nat)) := do
  let k ← eKs w t.pa
  let s ← t.todo.foldlM (fun s e => eEntry1 w k srv s e)
    { t := { t with todo := [] }, outs := [], logs := [], sums := [], later := [] }
  let t' ← eSums s
  let pas ← ((s.outs.map Prod.fst).eraseDups).mapM (fun dev => do return (dev, (← eKsPa w t.ks dev)))
  let d ← eGet
  let mpas ← ((s.logs.map Prod.fst).eraseDups).mapM (fun m => do
    match kget d.tbl.moves m with
    | some mv => return (m, (← eKsPa w mv.ks mv.b))
    | none => return (m, 0))
  return (s, { t' with todo := s.later }, pas, mpas)

/-! ### Messages (R496-R498) -/

/-- A table service message to the member whose Keystone lies at a PA. -/
def tblMsg (op vc c tc pa args : Nat) (data : Bytes) : Msg :=
  { hMsg op vc c args data with tc := BitVec.ofNat 3 tc, af := true, addr := BitVec.ofNat 56 pa, src := 0xFFFF, dst := 0xFFFF }

/-- Sends a table message toward the member at its PA. -/
def Dev.tblSend (d : Dev) (m : Msg) : Dev :=
  match d.route m.addr.toNat with
  | .away p _ => d.send (.msg p m)
  | _ => d

/-- Sends a table request that MRT_REQ_TMO watches, kept under a line made from its tag (R174, R496). -/
def Dev.tblAsk (d : Dev) (m : Msg) (why : ReqFor) (line : Nat → Nat) : Dev × Nat :=
  let t := d.freeTag
  let m := { m with tag := BitVec.ofNat 20 t }
  let p := match d.route m.addr.toNat with | .away p _ => p | _ => 0
  ({ d.tblSend m with
      coh.nextTag := (t + 1) % 2 ^ 20,
      coh.reqs := d.coh.reqs ++ [{ port := p, msg := m, why := why, line := line t, reroutes := 0 }] }, t)

/-- An entry in its message (R497). Byte 9 [0] of a gradient's slot says that it is poisoned, as R500 needs (log 38). -/
def entBytes (t : TWork) (e : TEnt) : Bytes :=
  if t.grad then
    let g := (e.grad.map (fun x => if t.gfmt = 1 then leBytes 2 (x / 65536) else leBytes 4 x)).flatten
    padTo 32 (leBytes 8 e.idx ++ leBytes 1 e.epoch ++ leBytes 1 (b2n e.gp)) ++ padTo ((g.length + 31) / 32 * 32) g
  else leBytes 8 e.idx ++ leBytes 3 e.bag ++ leBytes 1 e.epoch ++ leBytes 4 e.w

/-- Entries that one sub-batch may hold (R492, R497). -/
def subMax (t : TWork) : Nat :=
  if t.grad then max 1 (2048 / (1 + (t.rowb / tblEb t.fmt * (if t.gfmt = 1 then 2 else 4) + 31) / 32)) else 4096

/-- Sends the entries for a member in sub-batches (R492). -/
def Dev.sendSubs (d : Dev) (id : Nat) (o : Op) (t : TWork) (pa : Nat) (es : List TEnt) : Dev × TWork :=
  let groups := ((es.map (fun e => e.rer)).eraseDups).map (fun r => (r, es.filter (fun e => e.rer == r)))
  groups.foldl (fun x g =>
    (chunks (subMax t) (g.2.length + 1) g.2).foldl (fun x part =>
      let args := g.1 % 4 * 2 ^ 16 + (if t.grad then t.gfmt else t.pool) * 2 ^ 24 + t.ver * 2 ^ 32
      let m := tblMsg (if t.grad then 0x52 else 0x50) 0 o.chamber o.tc pa args ((part.map (entBytes t)).flatten)
      let (d, tag) := x.1.tblAsk m (.op id) (fun t => 2 ^ 61 + t)
      (d, { x.2 with parts := x.2.parts ++ [{ tag := tag, ents := part }] })) x) (d, t)

/-- A LOG record of an entry for the new owner of a row (R498, R505-R507): its gradient goes as FP32 (log 38). A forwarded one is
a part of the operation; an update that was applied here is not. -/
def Dev.sendLog (d : Dev) (id : Nat) (o : Op) (t : TWork) (mid pa : Nat) (e : TEnt) (fwd : Bool) : Dev × TWork :=
  match kget d.tbl.moves mid with
  | none => (d, t)
  | some mv =>
    let seq := mv.seq + 1
    let d := { d with tbl.moves := kput d.tbl.moves mid { mv with seq := seq } }
    let (tag0, dev0) : Nat × Nat := match o.reply with
      | some (p, m) => (m.tag.toNat, (d.peerOf p).getD 0)
      | none => (u32 id, d.devnum)
    let rec_ := padTo 32 (leBytes 4 seq ++ leBytes 4 tag0 ++ leBytes 1 dev0 ++ leBytes 1 (b2n !t.grad)) ++
      padTo (if t.grad then 0 else 32) (if t.grad then [] else entBytes t e) ++ (if t.grad then entBytes { t with gfmt := 0 } e else [])
    let m := tblMsg 0x53 0 o.chamber o.tc pa (6 * 2 ^ 16) rec_
    let (d, tag) := d.tblAsk m (if fwd then .op id else .none) (fun _ => 2 ^ 62 + mid)
    (d, if fwd then { t with parts := t.parts ++ [{ tag := tag, ents := [e] }] } else t)

/-! ### Ends of lookups and scatter-adds (R491, R493, R494) -/

/-- The quotient of a value by a count, correctly rounded when it is encoded. -/
def divF (v : FV) (n : Nat) : FV :=
  match v with
  | .fin s m e => .fin s (m * 2 ^ 64 / n * 2 + b2n (m * 2 ^ 64 % n != 0)) (e - 65)
  | v => v

/-- FP32 output of a bag. -/
def TWork.row (t : TWork) (bag : Nat) : List Nat :=
  let kept := sget 0 t.kept bag
  (List.range (t.rowb / tblEb t.fmt)).map (fun e =>
    let v := sget 0 t.acc (bag * 4096 + e)
    if t.pool = 1 then (if kept = 0 then 0 else encodeF fp32 false (divF (decodeF fp32 v) kept)) else v)

/-- Writes the output rows of a lookup at a pitch (R494). -/
def eRows (w : Who) (t : TWork) (bytes : Nat) (enc : Nat → Bytes) : Eng Unit := do
  let pitch := (bytes + 63) / 64 * 64
  for b in List.range t.nbags do
    eWriteMarked w (t.dst + b * pitch) ((t.row b).map enc).flatten (fun _ => t.poison.contains b)

/-- The output rows of a lookup that has met no failure (R494). -/
def eTblOut (w : Who) (t : TWork) : Eng Unit := do
  let e := t.rowb / tblEb t.fmt
  if t.status = 0 && !t.grad then
    eRows w t (4 * e) (leBytes 4)
    if t.outfmt ≠ 0 then
      let n := (← eGet).fresh
      eMod Dev.drawn
      eRows w t (2 * e) (fun x => leBytes 2 (conv n 0 (if t.outfmt = 1 then 1 else 2) false false (decodeF fp32 x)))
    ePoison (!t.poison.isEmpty)

/-- The status with which work ends, 0 when it does not fail. -/
def eStatus (m : Eng Unit) : Eng Nat :=
  tryCatch (do m; return 0) (fun e => match e with
    | .fail st => return st
    | .block b s => throw (.block b s))

/-- The end of an operation at its origin: output rows, DROPS, and the release of its version, whatever its status (R479, R491,
R494). -/
def eTblEnd (w : Who) (t : TWork) : Eng Done := do
  let st ← eStatus (eTblOut w t)
  let t := if st = 0 then t else { t with status := worseStatus st t.status }
  let k ← eKs w t.pa
  if t.counted then eKsPut w t.pa (k.count t.ver false)
  if t.drops ≠ 0 then
    let n ← ePaNum w (t.pa + 64) 8
    ePaPut w (t.pa + 64) (leBytes 8 (satAdd 64 n t.drops))
    eMod (fun d => d.bump .TBL_DROP_CNT_INDICES w.chamber t.drops)
  let res := if t.grad then 0 else t.ver + t.replicas % 2 ^ 32 * 2 ^ 32
  if t.status ≠ 0 then return { status := t.status, count := 0, result := res }
  if t.drops ≠ 0 then return { status := 2, count := t.drops, result := res }
  return { count := t.applied, result := res }

/-- TRSP to a sub-batch (R497). -/
def trspMsg (q : Msg) (last bounce : Bool) (status drops : Nat) (data : Bytes) : Msg :=
  { hMsg 0x51 2 q.chamber.toNat ((b2n last + 2 * b2n bounce) * 2 ^ 16 + drops % 2 ^ 32 * 2 ^ 32) data with
      tc := q.tc, af := q.af, addr := q.addr, src := 0xFFFF, dst := 0xFFFF, tag := q.tag, status := BitVec.ofNat 8 status }

/-- The partial of a bag in a TRSP (R497). -/
def bagBytes (t : TWork) (b : Nat) : Bytes :=
  let p := ((List.range (t.rowb / tblEb t.fmt)).map (fun e => leBytes 4 (sget 0 t.acc (b * 4096 + e)))).flatten
  padTo 32 (leBytes 4 b ++ leBytes 4 (sget 0 t.kept b) ++ leBytes 1 (b2n (t.poison.contains b))) ++ padTo ((p.length + 31) / 32 * 32) p

/-- Answers a sub-batch: bounced entries, partials, and LAST (R493, R497). -/
def Dev.tblReply (d : Dev) (port : Nat) (q : Msg) (t : TWork) : Dev :=
  let d := if t.bounce.isEmpty then d
    else d.send (.msg port (trspMsg q false true 0 0 ((t.bounce.map (entBytes t)).flatten)))
  let per := max 1 (2048 / (1 + (t.rowb / tblEb t.fmt * 4 + 31) / 32))
  let bags := if t.grad || t.status != 0 then [] else t.kept.map Prod.fst
  let parts := chunks per (bags.length + 1) bags
  let n := parts.length
  if n = 0 then d.send (.msg port (trspMsg q true false t.status t.drops []))
  else (parts.mapIdx (fun i p => (i, p))).foldl (fun d x =>
    let last := decide (x.1 + 1 = n)
    d.send (.msg port (trspMsg q last false t.status (if last then t.drops else 0) ((x.2.map (bagBytes t)).flatten)))) d

/-- A reader of a version leaves (R479, R480). -/
def Dev.unread (d : Dev) (at_ : SvcAt) (c pa ver : Nat) : Dev :=
  d.svc at_ (.unread c pa ver) c (fun w => do
    let k ← eKs w pa
    eKsPut w pa (k.count ver false)
    return id)

/-- A work's count of readers is released and it is gone: for an operation that ends otherwise (R509). -/
def Dev.tblForget (d : Dev) (id : Nat) : Dev :=
  match kget d.tbl.works id, kget d.ops id with
  | some t, some o =>
    let d := { d with tbl.works := kdel d.tbl.works id }
    if t.counted then d.unread none o.chamber t.pa t.ver else d
  | _, _ => { d with tbl.works := kdel d.tbl.works id }

/-- Every part of a work has ended. -/
def Dev.tblEnd (d : Dev) (id : Nat) (o : Op) (t : TWork) : Dev :=
  match o.reply with
  | some (p, q) =>
    (((d.tblForget id).freeOp id o).tblReply p q t)
  | none =>
    d.turn id o (do
        tryCatch (eTblEnd (tblWho d id o) t) (fun e => match e with
          | .fail st => return { status := worseStatus st t.status, count := 0 }
          | .block b s => throw (.block b s)))
      (fun r o d =>
        let lines := if r.status < 0x20 then r.count else if r.status = 0x51 ∨ r.status = 0x60 then 0 else o.lines
        ({ d with tbl.works := kdel d.tbl.works id }).finishOp id o { r with count := lines })

/-- A work goes on: requests without an answer are counted off, entries still to see to are seen to, and it ends when nothing is
left (R492, R493). -/
def Dev.tblGo (d : Dev) (id : Nat) (o : Op) (t : TWork) : Dev :=
  let gone := o.ans.filter (fun a => decide (2 ^ 61 ≤ a.line ∧ a.line < 2 ^ 62))
  let lost := o.ans.filter (fun a => decide (2 ^ 62 ≤ a.line))
  let parts := if lost.isEmpty then t.parts.filter (fun p => !gone.any (fun a => a.line == 2 ^ 61 + p.tag)) else []
  let st := (gone ++ lost).foldl (fun s a => worseStatus s a.status) t.status
  let t := { t with parts := parts, status := st }
  let o := { o with ans := o.ans.filter (fun a => decide (a.line < 2 ^ 61)) }
  let save (d : Dev) (o : Op) (t : TWork) : Dev := { d.setOp id { o with phase := .ready } with tbl.works := kput d.tbl.works id t }
  if t.todo.isEmpty then
    if t.parts.isEmpty then (save d o t).tblEnd id o t else save d o t
  else
    (save d o t).turn id o (do
        tryCatch (do return Except.ok (← eTblGo (tblWho d id o) t o.reply.isSome)) (fun e => match e with
          | .fail st => return Except.error st
          | .block b s => throw (.block b s)))
      (fun r o d =>
        match r with
        | .error st =>
          let t := { t with todo := [], status := worseStatus t.status st }
          if t.parts.isEmpty then (save d o t).tblEnd id o t else save d o t
        | .ok (s, t, pas, mpas) =>
          let (d, t) := pas.foldl (fun x p => x.1.sendSubs id o x.2 p.2 ((s.outs.filter (fun e => e.1 == p.1)).map Prod.snd)) (d, t)
          let (d, t) := s.logs.foldl (fun x l => x.1.sendLog id o x.2 l.1 (((mpas.find? (fun m => m.1 == l.1)).map Prod.snd).getD 0) l.2.1 l.2.2) (d, t)
          if t.todo.isEmpty && t.parts.isEmpty then (save d o t).tblEnd id o t else save d o t)

/-! ### Descriptors (R488-R490, R499) -/

/-- A table operation's Keystone here, when the operation may run: gather units, ACTIVE, FMT (R467, R487, R490). -/
def eTable (w : Who) (ks : Nat) : Eng (Nat × KS) := do
  let d ← eGet
  if !d.hasXu w.chamber || ks % 2 ^ 24 != 0 || decide (2 ^ 52 < ks + 2 ^ 24) then eFail 0x7F
  let pa ← eOwnKs w ks
  let k ← eKs w pa
  if !k.active || !tblFmtOk k.fmt || k.rowb % tblEb k.fmt != 0 then eFail 0x7F
  return (pa, k)

/-- A work over a version of a table with no entries yet. -/
def newWork (ks pa ver : Nat) (k : KS) (counted grad : Bool) : TWork :=
  let new := k.ver = ver
  { ks := ks, pa := pa, ver := ver, counted := counted, grad := grad, gfmt := 0, fmt := k.fmt, rowb := k.rowb, span := k.span,
    rows := if new then k.rows else k.altRows, base := if new then k.base else k.altBase, shard := k.shard, rowmap := k.rowmap,
    pool := 0, outfmt := 0, dst := 0, nbags := 0, todo := [], parts := [], acc := [], kept := [], poison := [], drops := 0,
    bounce := [], applied := 0, replicas := 0, status := 0 }

/-- `n` numbers of `size` bytes at a CVA; poison ends the work POISON_CONSUMED (16 R625). -/
def eNums (w : Who) (cva size n : Nat) : Eng (List Nat) := do
  let (b, p) ← eRead w cva (size * n)
  if p then eFail 0x30
  return (List.range n).map (fun i => field b (size * i) size)

/-- Counts a reader of the version bound (R479). -/
def eReader (w : Who) (pa : Nat) (k : KS) (v : Nat) : Eng Unit := eKsPut w pa (k.count v true)

/-- Binds a version (R479). -/
def eBind (w : Who) (ks : Nat) (pin : Option Nat) : Eng (Nat × KS × Nat) := do
  let (pa, k) ← eTable w ks
  let v := pin.getD k.ver
  if v ≠ k.ver ∧ !(v = k.alt ∧ k.prevV = true) then eFail 0x60
  return (pa, k, v)

/-- What a LOOKUP names (R489): indices and their bytes, bags, OFFSETS, WEIGHTS. -/
structure LookArgs where
  nidx : Nat
  size : Nat
  nbags : Nat
  offs : Nat
  wts : Option Nat
  bag : Nat
deriving DecidableEq, Repr

/-- The arguments of a LOOKUP or LOOKUP2 (R488, R489); one that breaks their rules names none. -/
def lookArgs (o : Op) : Option LookArgs :=
  let nidx := o.f 32 4
  if o.opcode = 0x20 then
    let bag := o.f 36 2
    let dst := o.f 40 8
    if o.nslots ≠ 1 ∨ o.f 24 8 % 4 ≠ 0 ∨ nidx = 0 ∨ 2 ^ 24 < nidx ∨ bag = 0 ∨ nidx % bag ≠ 0 ∨ 2 ≤ o.f 38 1 ∨ o.f 39 1 ≠ 0 ∨ dst % 64 ≠ 0 ∨
        !o.zero 48 16 ∨ 2 ^ 52 < o.f 24 8 + 4 * nidx ∨ 2 ^ 52 ≤ dst then none
    else some { nidx := nidx, size := 4, nbags := nidx / bag, offs := 0, wts := none, bag := bag }
  else
    let nbags := o.f 36 4
    let offs := o.f 40 8
    let b := o.f 48 1
    let dst := o.f 56 8
    let wts := if o.nslots = 2 then o.f 64 8 else 0
    if b % 4 = 3 ∨ bits b 2 2 = 3 ∨ 2 < o.nslots ∨ b / 32 ≠ 0 ∨ (b % 4 = 2 ∧ o.nslots ≠ 2) ∨
        (o.nslots = 2 ∧ (wts % 4 ≠ 0 ∨ !o.zero 72 56)) ∨
        nidx = 0 ∨ 2 ^ 24 < nidx ∨ nbags = 0 ∨ 2 ^ 24 < nbags ∨ o.f 24 8 % 8 ≠ 0 ∨ offs % 4 ≠ 0 ∨ dst % 64 ≠ 0 ∨
        2 ^ 52 < o.f 24 8 + 8 * nidx ∨ 2 ^ 52 < offs + 4 * (nbags + 1) ∨ 2 ^ 52 ≤ dst ∨ 2 ^ 52 < wts + 4 * nidx ∨
        (offs = 0 ∧ nidx ≠ nbags * o.f 52 4) then none
    else some { nidx := nidx, size := 8, nbags := nbags, offs := offs, wts := if b % 4 = 2 then some wts else none, bag := o.f 52 4 }

/-- A LOOKUP or LOOKUP2 binds its version and counts itself in its readers; it has read nothing yet (R479, R488, R489). -/
def eLookBind (w : Who) (o : Op) : Eng TWork := do
  match lookArgs o with
  | none => eFail 0x7F
  | some a =>
    let b := o.f 48 1
    let two := o.opcode == 0x20
    let (pa, k, v) ← eBind w (o.f 16 8) (if !two && bit b 4 then some (o.f 49 3) else none)
    eReader w pa k v
    return { newWork (o.f 16 8) pa v k true false with
      pool := if two then o.f 38 1 else b % 4, outfmt := if two then 0 else bits b 2 2, dst := if two then o.f 40 8 else o.f 56 8,
      nbags := a.nbags, start := true }

/-- A bound lookup reads its offsets, indices and weights (R490). -/
def eLookRead (w : Who) (o : Op) (t : TWork) : Eng TWork := do
  match lookArgs o with
  | none => eFail 0x7F
  | some a =>
    let os ← if a.offs = 0 then pure ((List.range (a.nbags + 1)).map (fun i => i * a.bag)) else eNums w a.offs 4 (a.nbags + 1)
    if (List.range a.nbags).any (fun i => decide (os.getD (i + 1) 0 < os.getD i 0)) || os.getD a.nbags 0 != a.nidx then eFail 0x7F
    let is ← eNums w (o.f 24 8) a.size a.nidx
    let ws ← match a.wts with | some x => eNums w x 4 a.nidx | none => pure []
    let ents := (List.range a.nbags).flatMap (fun g => (List.range (os.getD (g + 1) 0 - os.getD g 0)).map (fun j =>
      let i := os.getD g 0 + j
      ({ idx := is.getD i 0, bag := g, epoch := 0, w := if a.wts.isSome then ws.getD i 0 else 0x3F800000, grad := [], gp := false,
         rer := 0 } : TEnt)))
    return { t with start := false, todo := ents }

/-- The start of a SCATTER (R499). -/
def eScatter (w : Who) (o : Op) : Eng TWork := do
  let nidx := o.f 32 4
  let g := o.f 36 1
  let grads := o.f 40 8
  let pitch := o.f 48 4
  if o.nslots ≠ 1 ∨ o.f 24 8 % 8 ≠ 0 ∨ nidx = 0 ∨ 2 ^ 24 < nidx ∨ 2 ≤ g ∨ !o.zero 37 3 ∨ grads % 4 ≠ 0 ∨ pitch % 4 ≠ 0 ∨ !o.zero 52 12 ∨
      2 ^ 52 < o.f 24 8 + 8 * nidx ∨ 2 ^ 52 < grads + nidx * pitch then eFail 0x7F
  let (pa, k) ← eTable w (o.f 16 8)
  let gb := if g = 1 then 2 else 4
  if !k.train || decide (pitch < k.elems * gb) then eFail 0x7F
  let is ← eNums w (o.f 24 8) 8 nidx
  let ents ← (is.mapIdx (fun i x => (i, x))).mapM (fun x => do
    let (b, p) ← eRead w (grads + x.1 * pitch) (k.elems * gb)
    return ({ idx := x.2, bag := 0, epoch := 0, w := 0x3F800000,
              grad := (List.range k.elems).map (fun e => if g = 1 then field b (2 * e) 2 * 65536 else field b (4 * e) 4),
              gp := p, rer := 0 } : TEnt))
  return { newWork (o.f 16 8) pa k.ver k false true with gfmt := g, todo := ents }

/-- One turn of a bound lookup that has not read its indices: a failure of it ends the lookup, which releases its version (R479). -/
def Dev.tblRead (d : Dev) (id : Nat) (o : Op) (t : TWork) : Dev :=
  d.turn id o (eTry (eLookRead (tblWho d id o) o t)) (fun r o d =>
    match r with
    | .ok t => d.tblGo id o t
    | .error st => d.tblGo id o { t with start := false, status := st })

/-- An operation that binds when it is admitted does so before its turn comes (R479, 13 R519). What fails then is its status: at once, or
when FENCE lets it run. -/
def Dev.bindNow {α : Type} (d : Dev) (id : Nat) (o : Op) (m : Eng α) (k : α → Dev → Dev) : Dev :=
  d.turn id o (eTry m) (fun r o d =>
    match r with
    | .ok t => k t (d.setOp id o)
    | .error st => if d.mayRun id o then d.finishOp id o { status := st } else d.setOp id { o with acc3 := 0x100 + st })

/-- A binding that has failed ends the operation in its turn. -/
def Dev.unbound (d : Dev) (id : Nat) (o : Op) (go : Dev → Dev) : Dev :=
  if 0x100 ≤ o.acc3 then d.finishOp id o { status := o.acc3 - 0x100 } else go d

/-- A lookup is bound to its version (R479). -/
def Dev.tblBind (d : Dev) (id : Nat) (o : Op) : Dev :=
  d.bindNow id o (eLookBind (tblWho d id o) o) (fun t d => { d with tbl.works := kput d.tbl.works id t })

/-- One turn of a table operation or of a sub-batch of another member (log 11). -/
def Dev.tblRow (d : Dev) (id opc srv : Nat) (start : Dev → Op → Dev) : Dev :=
  match kget d.ops id with
  | none => d
  | some o =>
    d.runOp id (if o.opcode = srv then srv else opc) (fun o d =>
      match kget d.tbl.works id with
      | some t => if t.start then d.tblRead id o t else d.tblGo id o t
      | none => if o.opcode = srv then d else start d o)

/-- A lookup in its turn: bound if it could not be at its admission, then begun. -/
def Dev.lookStart (d : Dev) (id : Nat) (o : Op) : Dev :=
  d.unbound id o (fun d =>
    let d := d.tblBind id o
    match kget d.tbl.works id, kget d.ops id with
    | some t, some o => d.tblRead id o t
    | _, _ => d)

/-- LOOKUP (R489). -/
def Dev.lookup (d : Dev) (id : Nat) : Dev := d.tblRow id 0x21 0x120 (fun d o => d.lookStart id o)
/-- LOOKUP2 (R488). -/
def Dev.lookup2 (d : Dev) (id : Nat) : Dev := d.tblRow id 0x20 0x120 (fun d o => d.lookStart id o)
/-- SCATTER (R499). -/
def Dev.scatter (d : Dev) (id : Nat) : Dev :=
  d.tblRow id 0x22 0x122 (fun d o => d.turn id o (eScatter (tblWho d id o) o) (fun t o d => d.tblGo id o t))

/-! ### Sub-batches (R480, R493, R496, R500) -/

/-- The member's Keystone at the ADDR of a table message, when it is ACTIVE and of the message's Chamber, or the status that the
message ends with (R496). Reading it takes the stages that any access takes (02 R84). -/
def eTblHere (w : Who) (m : Msg) : Eng (Except Nat KS) := do
  let d ← eGet
  let pa := m.addr.toNat
  if d.route pa ≠ .here ∨ pa % 64 ≠ 0 then return .error 0x7F
  match (← eTry (eKs w pa)) with
  | .ok k => return if k.active then .ok k else .error 0x7F
  | .error st => return .error st

/-- The entries of a TLKUP; a last entry of zeros fills a slot (log 38). -/
def lookupEnts (b : Bytes) : List TEnt :=
  let es := (List.range (b.length / 16)).map (fun i =>
    ({ idx := field b (16 * i) 8, bag := field b (16 * i + 8) 3, epoch := field b (16 * i + 11) 1, w := field b (16 * i + 12) 4,
       grad := [], gp := false, rer := 0 } : TEnt))
  match es.getLast? with
  | some e => if e.idx = 0 ∧ e.bag = 0 ∧ e.epoch = 0 ∧ e.w = 0 then es.dropLast else es
  | none => es

/-- The entries of a TGRAD of rows of `n` elements. -/
def gradEnts (b : Bytes) (n gfmt : Nat) : List TEnt :=
  let gb := if gfmt = 1 then 2 else 4
  let sz := 32 + (n * gb + 31) / 32 * 32
  (List.range (b.length / sz)).map (fun i =>
    { idx := field b (sz * i) 8, bag := 0, epoch := field b (sz * i + 8) 1, w := 0x3F800000,
      grad := (List.range n).map (fun e => if gfmt = 1 then field b (sz * i + 32 + 2 * e) 2 * 65536 else field b (sz * i + 32 + 4 * e) 4),
      gp := bit (field b (sz * i + 9) 1) 0, rer := 0 })

/-- A sub-batch becomes an operation of this device. -/
def Dev.subStart (d : Dev) (port : Nat) (m : Msg) (grad : Bool) (k : KS) : Dev :=
  let a := m.args.toNat
  let id := d.nextOp
  let o : Op :=
    { chamber := m.chamber.toNat, ring := 64, idx := 0, nslots := 1, opcode := if grad then 0x122 else 0x120, tag := 0, sig := false,
      fence := false, nfz := false, tc := m.tc.toNat, body := [0], phase := .ready, admitted := d.gt, part := 0, lines := 0, nfzLines := 0,
      poison := false, fallback := false, unstaged := false, applied := false, ans := [],
      reply := some (port, m), portal := none, acc := 0, acc2 := 0, acc3 := 0, seen := [] }
  let gf := a / 2 ^ 24 % 16
  let t := { newWork 0 m.addr.toNat (a / 2 ^ 32 % 2 ^ 24) k true grad with
    gfmt := gf, pool := a / 2 ^ 24 % 4, todo := if grad then gradEnts m.data k.elems gf else lookupEnts m.data }
  { d with ops := kput d.ops id o, nextOp := id + 1, tbl.works := kput d.tbl.works id t }.tblGo id o t

/-- A sub-batch is bound to its version and served as an operation of this device (R480, R493). -/
def Dev.subBatch (d : Dev) (at_ : SvcAt) (port : Nat) (m : Msg) (grad : Bool) : Dev :=
  match d.peerChm port m with
  | .error d => d
  | .ok () =>
    let c := m.chamber.toNat
    let v := m.args.toNat / 2 ^ 32 % 2 ^ 24
    let fail (st : Nat) (d : Dev) : Dev := d.send (.msg port (trspMsg m true false st 0 []))
    d.svc at_ (.msg port m) c (fun w => do
      match (← eTblHere w m) with
      | .error st => return fail st
      | .ok k =>
        if v ≠ k.ver ∧ !(v = k.alt ∧ (k.prevV || k.nextV) = true) then return fun d => fail 0x60 (d.bump .TBL_CNT_VRETIRED c)
        eKsPut w m.addr.toNat (k.count v true)
        return fun d => d.subStart port m grad k)

/-- TLKUP arrives at an owner (R493). -/
def Dev.tlkup (d : Dev) (port : Nat) (m : Msg) : Dev := d.onPeer port 0x50 m (fun d m => d.subBatch none port m false)
/-- TGRAD arrives at a primary (R500). -/
def Dev.tgrad (d : Dev) (port : Nat) (m : Msg) : Dev := d.onPeer port 0x52 m (fun d m => d.subBatch none port m true)

/-- The partials of a TRSP: bag, kept count, poison, sums. -/
def trspBags (b : Bytes) (n : Nat) : List (Nat × Nat × Bool × List Nat) :=
  let sz := 32 + (4 * n + 31) / 32 * 32
  (List.range (b.length / sz)).map (fun i =>
    (field b (sz * i) 4, field b (sz * i + 4) 4, bit (field b (sz * i + 8) 1) 0, (List.range n).map (fun e => field b (sz * i + 32 + 4 * e) 4)))

/-- TRSP arrives: partials are added, bounced entries are resolved again, LAST ends the part (R493, R507). -/
def Dev.trsp (d : Dev) (port : Nat) (m : Msg) : Dev :=
  d.onPeer port 0x51 m (fun d m =>
    match d.findReq m with
    | none => d.bump .MRT_CNT_LATE
    | some q =>
      match q.why with
      | .op id =>
        match kget d.ops id, kget d.tbl.works id with
        | some o, some t =>
          let a := m.args.toNat
          let n := t.rowb / tblEb t.fmt
          let last := bit a 16
          let mine (p : TPart) : Bool := p.tag == m.tag.toNat
          let t : TWork :=
            if bit a 17 then
              let es := if t.grad then gradEnts m.data n t.gfmt else lookupEnts m.data
              let rer := q.msg.args.toNat / 2 ^ 16 % 4
              let t := { t with parts := t.parts.map (fun p => if mine p then { p with ents := p.ents.drop es.length } else p) }
              if 3 ≤ rer then { t with status := worseStatus t.status 0x41 }
              else { t with todo := t.todo ++ es.map (fun e => { e with rer := rer + 1 }) }
            else
              (if t.grad then [] else trspBags m.data n).foldl (fun (t : TWork) x =>
                let t := t.add x.1 x.2.2.2
                { t with kept := kput t.kept x.1 (sget 0 t.kept x.1 + x.2.1),
                         poison := if x.2.2.1 && !t.poison.contains x.1 then t.poison ++ [x.1] else t.poison }) t
          if !last then { d with tbl.works := kput d.tbl.works id t }
          else
            let drops := a / 2 ^ 32
            let ents := ((t.parts.filter mine).map (fun p => p.ents.length)).sum
            let st := m.status.toNat
            let t := { t with status := if st = 0 then t.status else worseStatus t.status st, drops := t.drops + drops,
                              parts := t.parts.filter (fun p => !mine p), applied := t.applied + (ents - drops) }
            let d := { d.dropReq q with tbl.works := kput d.tbl.works id t }
            if d.mayRun id { o with phase := .ready } then d.tblGo id o t else d
        | _, _ => d.dropReq q
      | _ => d)

end Sys2Proof.Machine
end

