-- ==== Sys2Proof/Machine/Publish.lean ====
section
/-!
DEFINITION. Publishing and retiring versions, replicas of rows, and moving a row's primary (12 R481-R486, R498, R503-R508).
What arrives in a TCTL message or follows a journal record is work of the service cores (log 131).
-/

namespace Sys2Proof.Machine

/-! ### TCTL (R498) -/

/-- A TCTL request. -/
def tctlMsg (code c tc pa tag : Nat) (data : Bytes) : Msg :=
  { tblMsg 0x53 0 c tc pa (code * 2 ^ 16) data with tag := BitVec.ofNat 20 tag }

/-- The answer to a TCTL message; a message of this device to itself is answered by the caller. -/
def Dev.tctlAnswer (d : Dev) (src : Option Nat) (q : Msg) (code status : Nat) (data : Bytes) : Dev :=
  match src with
  | some p => d.send (.msg p { tblMsg 0x53 2 q.chamber.toNat q.tc.toNat q.addr.toNat (code * 2 ^ 16) (padTo 32 data) with
                                 tag := q.tag, status := BitVec.ofNat 8 status })
  | none => d

/-- A conversation's tag, which nothing of the device uses (04 R148). -/
def Dev.takeTag (d : Dev) : Dev × Nat := ({ d with coh.nextTag := (d.freeTag + 1) % 2 ^ 20 }, d.freeTag)

/-- The work of a member's message: of another device, or of this one to itself. -/
def svcOf (src : Option Nat) (m : Msg) : Svc := match src with | some p => .msg p m | none => .own m

/-- A device that has left the composition (17 R658): no answer of it is awaited. -/
def Dev.left (d : Dev) (dev : Nat) : Bool := d.gone dev

/-! ### Publish (R481-R485) -/

/-- Journal operation id of a publish (log 26). -/
def pubJid (c ks new : Nat) : Nat := ks / 2 ^ 24 % 2 ^ 28 + c * 2 ^ 28 + new % 2 ^ 24 * 2 ^ 32

/-- What a PUBLISH finds at admission. -/
inductive PubStart where
  | stale (ver : Nat)
  | go (members : List (Nat × Nat × Nat))

/-- The members' devices of a MEMBERS field. -/
def memberDevs (b : Bytes) : List Nat := (List.range 256).filter (fun i => bit (field b (i / 8) 1) (i % 8))

/-- The start of a PUBLISH (R481, R482). -/
def ePublish (w : Who) (o : Op) : Eng PubStart := do
  let list := o.f 40 8
  let n := o.f 48 2
  if o.nslots ≠ 1 ∨ o.f 27 1 ≠ 0 ∨ o.f 31 1 ≠ 0 ∨ !o.zero 37 3 ∨ !o.zero 50 14 ∨ list % 8 ≠ 0 ∨ 2 ^ 52 < list + 8 * n ∨
      verAfter (o.f 28 3) (o.f 24 3) = false then eFail 0x7F
  let (pa, k) ← eTable w (o.f 16 8)
  let (mb, p) ← ePaRead w (pa + 128) 32
  if p then eFail 0x30
  let devs := memberDevs mb
  let d ← eGet
  if k.train || !devs.contains d.devnum || n != devs.length then eFail 0x7F
  let ents ← eNums w list 8 n
  if (ents.map (fun e => e % 256)) != devs then eFail 0x7F
  if k.ver ≠ o.f 24 3 then return .stale k.ver
  let ms ← ents.mapM (fun e => do return (e % 256, (← eKsPa w (o.f 16 8) (e % 256)), e / 2 ^ 16 % 2 ^ 36))
  return .go ms

/-- PUBLISH (R481-R483). -/
def Dev.publish (d : Dev) (id : Nat) : Dev :=
  d.runOp id 0x23 (fun o d =>
    if d.tbl.pubs.any (fun p => p.2.op == some id) then d
    else if !d.jRoom then d
    else d.turn id o (ePublish (tblWho d id o) o) (fun r o d =>
      match r with
      | .stale v => d.finishOp id o { result := v }
      | .go ms =>
        let (d, key) := d.takeTag
        let p : Pub := { op := some id, chamber := o.chamber, tc := o.tc, ks := o.f 16 8, expect := o.f 24 3, new := o.f 28 3, nrows := o.f 32 5,
                         members := ms, stage := 0, wait := ms.map (fun m => m.1), flipped := 0 }
        ({ d.setOp id { o with phase := .waiting } with tbl.pubs := kput d.tbl.pubs key p }).journal 0x20 (pubJid o.chamber p.ks p.new)
          (leBytes 8 key ++ leBytes 3 p.expect ++ leBytes 3 p.new)))

/-- The image that STAGE or FLIP names at a member. -/
def Dev.imgOf (d : Dev) (pa new : Nat) : Option (Nat × KImg) :=
  d.tbl.imgs.find? (fun i => i.2.msg.addr.toNat == pa && field i.2.msg.data 20 3 == new)

/-- The key of no image, in the record of a member that holds none. -/
def noImage : Nat := 2 ^ 60

/-- Journals a member's record: 0 staged, 1 flip done, 2 restored. -/
def Dev.jImage (d : Dev) (key kind c new : Nat) (send : List Out) : Dev :=
  d.journal 0x24 (pubJid c 0 new) (leBytes 8 key ++ leBytes 1 kind) send

/-- The DONE of a member, for a coordinator elsewhere. -/
def doneOut (src : Option Nat) (q : Msg) : List Out :=
  match src with
  | some p => [.msg p { tblMsg 0x53 2 q.chamber.toNat q.tc.toNat q.addr.toNat (0x80 * 2 ^ 16) (zeros 32) with tag := q.tag }]
  | none => []

/-- ABANDON at a member: it restores its old image (R484). -/
def Dev.memberAbandon (d : Dev) (at_ : SvcAt) (src : Option Nat) (m : Msg) : Dev :=
  let pa := m.addr.toNat
  let new := field m.data 0 3
  let d := { d with tbl.held := d.tbl.held.filter (fun h => !(h.2.addr == m.addr && field h.2.data 20 3 == new)) }
  let done (d : Dev) (key : Nat) : Dev := { d with tbl.imgs := kdel d.tbl.imgs key }.jImage key 2 m.chamber.toNat new (doneOut src m)
  match d.imgOf pa new with
  | none => d.jImage noImage 2 m.chamber.toNat new (doneOut src m)
  | some (key, img) =>
    d.svc at_ (svcOf src m) m.chamber.toNat (fun w => do
      let k ← eKs w pa
      let o := ksOf img.old
      if k.nextV && k.alt == new then
        eKsPut w pa { k with alt := o.alt, altBase := o.altBase, altRows := o.altRows, altReaders := o.altReaders, flags := k.flags % 4 + k.flags / 8 * 8 }
      return fun d => done d key)

/-- Sends a TCTL request to members, this device excepted. -/
def Dev.tctlAll (d : Dev) (code c tc tag : Nat) (tos : List (Nat × Nat)) (data : Nat → Bytes) : Dev :=
  tos.foldl (fun d x => if x.1 = d.devnum then d else d.tblSend (tctlMsg code c tc x.2 tag (padTo 32 (data x.1)))) d

/-- A publish is abandoned: ABANDON goes to every member, PUB_ABORT is journaled, and the PUBLISH ends with a status (R484). -/
def Dev.pubAbandon (d : Dev) (key : Nat) (p : Pub) (status : Nat) : Dev :=
  let ms := p.members.map (fun m => (m.1, m.2.1))
  let data := fun (_ : Nat) => leBytes 3 p.new
  let d := d.tctlAll 2 p.chamber p.tc key ms data
  let d := match ms.find? (fun m => m.1 == d.devnum) with
    | some m => d.memberAbandon none none (tctlMsg 2 p.chamber p.tc m.2 key (padTo 32 (leBytes 3 p.new)))
    | none => d
  let d := d.bump .TBL_CNT_PUB_ABORT p.chamber
  { d with tbl.pubs := kput d.tbl.pubs key { p with stage := 4, wait := p.members.map Prod.fst } }.journal 0x22 (pubJid p.chamber p.ks p.new) (leBytes 8 key) []
    (p.op.map (fun o => (o, status, 0, p.expect)))

/-- A member's answer reaches the coordinator (R483, R484). -/
def Dev.pubAnswer (d : Dev) (key dev : Nat) (done : Bool) : Dev :=
  match kget d.tbl.pubs key with
  | none => d
  | some p =>
    if !p.wait.contains dev then d
    else
      let p' := { p with wait := p.wait.filter (fun x => x != dev) }
      match p.stage with
      | 1 =>
        if !done then d.pubAbandon key p 0
        else if p'.wait.isEmpty then
          { d with tbl.pubs := kput d.tbl.pubs key { p' with stage := 2 } }.journal 0x21 (pubJid p.chamber p.ks p.new) (leBytes 8 key)
        else { d with tbl.pubs := kput d.tbl.pubs key p' }
      | 3 =>
        if !done then d
        else
          let p' := { p' with flipped := p.flipped + 1 }
          if p'.wait.isEmpty then
            { d with tbl.pubs := kput d.tbl.pubs key { p' with stage := 4 } }.journal 0x23 (pubJid p.chamber p.ks p.new) (leBytes 8 key) []
              (p.op.map (fun o => (o, 0, p'.flipped, p.expect + 2 ^ 32)))
          else { d with tbl.pubs := kput d.tbl.pubs key p' }
      | _ => d

/-- STAGE at a member (R483): it waits for PREV_V, checks, and journals its images. -/
def Dev.memberStage (d : Dev) (at_ : SvcAt) (src : Option Nat) (m : Msg) : Dev :=
  let tell (code st : Nat) (data : Bytes) (d : Dev) : Dev :=
    match src with
    | some _ => d.tctlAnswer src m code st data
    | none => d.pubAnswer m.tag.toNat d.devnum false
  d.svc at_ (svcOf src m) m.chamber.toNat (fun w => do
    match (← eTblHere w m) with
    | .error st => return tell 0x80 st []
    | .ok k =>
      let new := field m.data 20 3
      if k.prevV then return fun d => { d with tbl.held := d.tbl.held ++ [(src, m)] }
      if k.ver ≠ field m.data 16 3 ∨ k.nextV = true then return tell 0x81 0 (leBytes 3 k.ver)
      let staged : KS := { k with alt := new, altBase := field m.data 2 5 % 2 ^ 36, altRows := field m.data 8 5, altReaders := 0, flags := k.flags + 4 }
      return fun d =>
        let key := freshKey d.tbl.imgs 0
        let imgs := d.tbl.imgs.filter (fun i => i.2.msg.addr != m.addr)
        { d with tbl.imgs := kput imgs key { port := src, msg := m, old := ksBytes k, staged := ksBytes staged, after := [], done := false, flipped := false,
                                             query := false } }.jImage key 0 m.chamber.toNat new [])

/-- The staged image is journaled: the Keystone takes it in one line write, and the member answers DONE (R483). -/
def Dev.memberStaged (d : Dev) (at_ : SvcAt) (e : JRec) (key : Nat) : Dev :=
  match kget d.tbl.imgs key with
  | none => d
  | some i =>
    if i.done then d
    else d.svc at_ (.commit e) i.msg.chamber.toNat (fun w => do
      let pa := i.msg.addr.toNat
      let k ← eKs w pa
      let s := ksOf i.staged
      eKsPut w pa { k with alt := s.alt, altBase := s.altBase, altRows := s.altRows, altReaders := 0, flags := s.flags }
      return fun d =>
        let d := { d with tbl.imgs := kput d.tbl.imgs key { i with done := true } }
        match i.port with
        | some _ => d.tctlAnswer i.port i.msg 0x80 0 []
        | none => d.pubAnswer i.msg.tag.toNat d.devnum true)

/-- The Keystone after a FLIP: in one line write it exchanges its versions (R483). -/
def KS.flipped (k : KS) (gt : Nat) : KS :=
  { k with ver := k.alt, alt := k.ver, base := k.altBase, altBase := k.base, rows := k.altRows, altRows := k.rows,
           readers := k.altReaders, altReaders := k.readers, flags := k.flags % 2 + 2 + k.flags / 8 * 8, flip := gt }

/-- FLIP at a member (R483); the flip is journaled before DONE. -/
def Dev.memberFlip (d : Dev) (at_ : SvcAt) (src : Option Nat) (m : Msg) : Dev :=
  let pa := m.addr.toNat
  let new := field m.data 0 3
  let tell (st : Nat) (d : Dev) : Dev :=
    match src with
    | some _ => d.tctlAnswer src m 0x80 st []
    | none => d.pubAnswer m.tag.toNat d.devnum (st == 0)
  d.svc at_ (svcOf src m) m.chamber.toNat (fun w => do
    match (← eTblHere w m) with
    | .error st => return tell st
    | .ok k =>
      if k.nextV && k.alt == new then
        let k' := k.flipped (← eGet).gt
        eKsPut w pa k'
        return fun d =>
          match d.imgOf pa new with
          | some (key, i) =>
            { d with tbl.imgs := kput d.tbl.imgs key { i with after := ksBytes k', flipped := true, query := false, port := src } }.jImage key 1
              m.chamber.toNat new (doneOut src m)
          | none =>
            let d := d.jImage noImage 1 m.chamber.toNat new (doneOut src m)
            if src.isNone then tell 0 d else d
      else if k.ver = new then return tell 0
      else return id)

/-- PUB_OPEN is journaled: STAGE goes to every member, this one included (R483). -/
def Dev.pubOpened (d : Dev) (key : Nat) : Dev :=
  match kget d.tbl.pubs key with
  | none => d
  | some p =>
    let data (dev : Nat) : Bytes :=
      let base := ((p.members.find? (fun m => m.1 == dev)).map (fun m => m.2.2)).getD 0
      leBytes 8 (dev + base * 2 ^ 16) ++ leBytes 5 p.nrows ++ zeros 3 ++ leBytes 3 p.expect ++ [0] ++ leBytes 3 p.new
    let d := { d with tbl.pubs := kput d.tbl.pubs key { p with stage := 1 } }
    let ms := p.members.map (fun m => (m.1, m.2.1))
    let d := d.tctlAll 0 p.chamber p.tc key ms data
    match ms.find? (fun m => m.1 == d.devnum) with
    | some m => d.memberStage none none (tctlMsg 0 p.chamber p.tc m.2 key (padTo 32 (data m.1)))
    | none => d

/-- Sends FLIP to the members that have not answered (R483, R484). -/
def Dev.sendFlips (d : Dev) (key : Nat) (p : Pub) : Dev :=
  let ms := (p.members.map (fun m => (m.1, m.2.1))).filter (fun m => p.wait.contains m.1)
  let d := d.tctlAll 1 p.chamber p.tc key ms (fun _ => leBytes 3 p.new)
  match ms.find? (fun m => m.1 == d.devnum) with
  | some m => d.memberFlip none none (tctlMsg 1 p.chamber p.tc m.2 key (padTo 32 (leBytes 3 p.new)))
  | none => d

/-- PUB_FLIP is journaled, the commit point: FLIP goes to every member (R483). -/
def Dev.pubFlipped (d : Dev) (key : Nat) : Dev :=
  match kget d.tbl.pubs key with
  | none => d
  | some p =>
    let p := { p with stage := 3, wait := p.members.map (fun m => m.1) }
    { d with tbl.pubs := kput d.tbl.pubs key p }.sendFlips key p

/-- PUB_TMO is over (R484). -/
def Dev.publishTimeout (d : Dev) (key : Nat) : Dev :=
  match kget d.tbl.pubs key with
  | none => d
  | some p =>
    match p.stage with
    | 0 => d.pubAbandon key p 0x50
    | 1 => d.pubAbandon key p 0x50
    | 3 =>
      let d := { d with tbl.pubs := kput d.tbl.pubs key { p with op := none } }
      match p.op with
      | some o => d.endOp o 0x50 p.flipped (p.expect + 2 ^ 32)
      | none => d
    | _ => d

/-- FLIP is sent again to each silent member; one that has left the composition is not awaited (R484). -/
def Dev.flipResend (d : Dev) (key : Nat) : Dev :=
  match kget d.tbl.pubs key with
  | none => d
  | some p =>
    if p.stage ≠ 3 then d
    else
      let p' := { p with wait := p.wait.filter (fun x => !d.left x) }
      let d := { d with tbl.pubs := kput d.tbl.pubs key p' }
      if p'.wait.isEmpty then
        { d with tbl.pubs := kput d.tbl.pubs key { p' with stage := 4 } }.journal 0x23 (pubJid p.chamber p.ks p.new) (leBytes 8 key) []
          (p.op.map (fun o => (o, 0, p.flipped, p.expect + 2 ^ 32)))
      else d.sendFlips key p'

/-- A recovering member asks the coordinator again (R485): toward the device from whose port STAGE came (log 38). -/
def Dev.publishQuery (d : Dev) (key : Nat) : Dev :=
  match kget d.tbl.imgs key with
  | none => d
  | some i =>
    match i.port with
    | some p =>
      if i.query then
        d.send (.msg p (tctlMsg 3 i.msg.chamber.toNat i.msg.tc.toNat ((d.peerOf p).getD 0 * 2 ^ 48 + i.msg.addr.toNat % 2 ^ 48) i.msg.tag.toNat
          (padTo 32 (leBytes 3 (field i.msg.data 20 3)))))
      else d
    | none => d

/-- TCTL messages arrive on PEER ports (R496). -/
def Dev.onTctl (d : Dev) (port : Nat) (m : Msg) (f : Dev → Msg → Dev) : Dev :=
  d.onPeer port 0x53 m (fun d m => match d.peerChm port m with | .error d => d | .ok () => f d m)

def Dev.tctlStage (d : Dev) (port : Nat) (m : Msg) : Dev := d.onTctl port m (fun d m => d.memberStage none (some port) m)
def Dev.tctlFlip (d : Dev) (port : Nat) (m : Msg) : Dev := d.onTctl port m (fun d m => d.memberFlip none (some port) m)
def Dev.tctlAbandon (d : Dev) (port : Nat) (m : Msg) : Dev := d.onTctl port m (fun d m => d.memberAbandon none (some port) m)

/-- QUERY at the coordinator: FLIP once PUB_FLIP is journaled, ABANDON where there is no such publish (R485), to the Keystone of the member that
asks, whose local address the QUERY bears (log 38). -/
def Dev.tctlQuery (d : Dev) (port : Nat) (m : Msg) : Dev :=
  d.onTctl port m (fun d m =>
    let new := field m.data 0 3
    let back (d : Dev) (code : Nat) : Dev :=
      d.send (.msg port (tctlMsg code m.chamber.toNat m.tc.toNat ((d.peerOf port).getD 0 * 2 ^ 48 + m.addr.toNat % 2 ^ 48) m.tag.toNat
        (padTo 32 (leBytes 3 new))))
    match kget d.tbl.pubs m.tag.toNat with
    | some p => if p.stage = 3 then back d 1 else if p.stage < 3 then d else back d (if p.wait.isEmpty then 1 else 2)
    | none =>
      if d.led.journal.any (fun r => r.typ == 0x21 && r.id / 2 ^ 32 == new && r.id / 2 ^ 28 % 16 == m.chamber.toNat && field r.payload 0 8 == m.tag.toNat) then back d 1 else back d 2)

/-- A member retires ALT (R486); a STAGE that waited for it goes on. -/
def Dev.retireAlt (d : Dev) (at_ : SvcAt) (c table : Nat) : Dev :=
  d.svc at_ (.retire c table) c (fun w => do
    match (← eFind w (table * 2 ^ 24 + (← eGet).devnum * 0x10000) false) with
    | .error _ => return id
    | .ok x =>
      let pa := x.pa
      if (← eGet).route pa ≠ .here then return id
      let k ← eKs w pa
      let d ← eGet
      if k.active && k.prevV && k.altReaders == 0 && decide (d.rf .TBL_TIME_GRACE c * 1000000 ≤ d.gt - k.flip) then
        eKsPut w pa { k with flags := k.flags - 2 }
        return fun d =>
          match d.tbl.held.find? (fun h => h.2.addr.toNat == pa) with
          | some h => { d with tbl.held := d.tbl.held.erase h }.memberStage none h.1 h.2
          | none => d
      return id)

/-- GRACE has passed since a flip (R486). -/
def Dev.versionRetire (d : Dev) (c table : Nat) : Dev := d.retireAlt none c table

/-! ### Replicas (R503) -/

/-- A member writes or drops a replica: false where its row map is full (R503). A REPL with no row drops (log 38). -/
def eRepl (w : Who) (pa : Nat) (data : Bytes) : Eng Bool := do
  let k ← eKs w pa
  let i := field data 0 8
  let r ← eRowFind w k i
  let mine := match r.hit with | some (n, e) => if e.kind = 1 then some n else none | none => none
  if data.length ≤ 32 then
    match mine with
    | some n => eRowPut w k.rowmap n (rEnt (zeros 32))
    | none => pure ()
    return true
  match (match mine with | some n => some n | none => if r.hit.isSome then none else r.free) with
  | some n =>
    eWrite w (rowData k.rowmap r.log n (rowPitch k.rowb)) ((data.drop 32).take k.rowb)
    eRowPut w k.rowmap n { idx := i, ver := field data 8 3, kind := 1, dev := 0, epoch := 0, flip := 0 }
    return true
  | none => return false

/-- The start of a REPLICATE: members named with the PA of their Keystone, and the message's data (R503). -/
def eReplicate (w : Who) (o : Op) : Eng (List (Nat × Nat × Nat) × Bytes) := do
  let b := o.f 32 1
  let n := b % 16 + 1
  let i := o.f 24 8
  if o.nslots ≠ 1 ∨ 8 < n ∨ bits b 4 3 ≠ 0 ∨ !o.zero (33 + n) (31 - n) then eFail 0x7F
  let (pa, k) ← eTable w (o.f 16 8)
  let d ← eGet
  let (mb, p) ← ePaRead w (pa + 128) 32
  if p then eFail 0x30
  let devs := (List.range n).map (fun j => o.f (33 + j) 1)
  if k.train || decide (k.rows ≤ i) || devs.any (fun x => !(memberDevs mb).contains x) then eFail 0x7F
  let t := newWork (o.f 16 8) pa k.ver k false false
  let (dev, valid, slot) ← eShard w t i
  if !valid || dev != d.devnum then eFail 0x7F
  let pas ← (devs.mapIdx (fun j x => (j, x))).mapM (fun x => do return (x.1, x.2, (← eKsPa w (o.f 16 8) x.2)))
  let head := padTo 32 (leBytes 8 i ++ leBytes 3 k.ver)
  if bit b 7 then return (pas, head)
  let pch := rowPitch k.rowb
  let (row, pp) ← eRow w (k.base * 65536 + (slot * 2 ^ k.span + i % 2 ^ k.span) * pch) k.rowb
  if pp then eFail 0x30
  return (pas, head ++ padTo ((pch + 31) / 32 * 32) row)

/-- REPLICATE's start with this member's own replicas: the places written here, and the other members (R503). -/
def eReplStart (w : Who) (o : Op) : Eng (Nat × List (Nat × Nat × Nat) × Bytes) := do
  let (pas, data) ← eReplicate w o
  let me := (← eGet).devnum
  let oks ← (pas.filter (fun p => p.2.1 == me)).mapM (fun p => do return b2n (← eRepl w p.2.2 data) * 2 ^ p.1)
  return (oks.sum, pas.filter (fun p => p.2.1 != me), data)

/-- REPLICATE (R503). -/
def Dev.replicate (d : Dev) (id : Nat) : Dev :=
  d.runOp id 0x24 (fun o d =>
    d.turn id o (eReplStart (tblWho d id o) o) (fun r o d =>
      let (res, pas, data) := r
      if pas.isEmpty then d.finishOp id o { result := res }
      else
        let (d, key) := d.takeTag
        let d := pas.foldl (fun d p => d.tblSend (tctlMsg 9 o.chamber o.tc p.2.2 key data)) d
        { d.setOp id { o with phase := .waiting } with
            tbl.repls := kput d.tbl.repls key { op := id, wait := pas.map (fun p => (p.1, p.2.1)), result := res } }))

/-- A member's answer to REPL. -/
def Dev.replAnswer (d : Dev) (key dev : Nat) (ok : Bool) : Dev :=
  match kget d.tbl.repls key with
  | none => d
  | some r =>
    let hit := r.wait.filter (fun x => x.2 == dev)
    let add : Nat := if ok then (hit.map (fun (x : Nat × Nat) => 2 ^ x.1)).sum else 0
    let r : Repl := { r with wait := r.wait.filter (fun x => x.2 != dev), result := r.result + add }
    if r.wait.isEmpty then
      match kget d.ops r.op with
      | some o => { d with tbl.repls := kdel d.tbl.repls key }.finishOp r.op { o with phase := .ready } { result := r.result }
      | none => { d with tbl.repls := kdel d.tbl.repls key }
    else { d with tbl.repls := kput d.tbl.repls key r }

/-- The work that a TCTL message about rows is: `f` on the member's Keystone, and what follows it (R496). -/
def Dev.rowWork (d : Dev) (at_ : SvcAt) (port : Nat) (m : Msg) (f : Who → KS → Eng (Dev → Dev)) : Dev :=
  match d.peerChm port m with
  | .error d => d
  | .ok () => d.svc at_ (.msg port m) m.chamber.toNat (fun w => do
    match (← eTblHere w m) with
    | .error st => return fun d => d.tctlAnswer (some port) m 0x82 st []
    | .ok k => f w k)

/-- The answer to a TCTL message about rows. -/
def rowAnswer (port : Nat) (m : Msg) (ok : Bool) (d : Dev) : Dev := d.tctlAnswer (some port) m (if ok then 0x80 else 0x82) 0 []

/-- REPL at a member (R503). -/
def Dev.replMsg (d : Dev) (at_ : SvcAt) (port : Nat) (m : Msg) : Dev :=
  d.rowWork at_ port m (fun w _ => do
    if (← eGet).rf .TLY_STS_SELF = 2 then return rowAnswer port m false
    return rowAnswer port m (← eRepl w m.addr.toNat m.data))

/-- REPL arrives (R503). -/
def Dev.tctlRepl (d : Dev) (port : Nat) (m : Msg) : Dev := d.onPeer port 0x53 m (fun d m => d.replMsg none port m)

/-! ### Moves (R504-R508) -/

/-- Journal operation id of a move: its tag (log 26). -/
def moveJid (key : Nat) : Nat := 2 ^ 62 + key

/-- RESULT of a MIGRATE (R504). -/
def moveResult (m : Move) (moved : Bool) : Nat := m.epoch + 256 * b2n moved

/-- What a MIGRATE finds at admission. -/
inductive MoveStart where
  | wait
  | go (pa epoch : Nat) (members : List (Nat × Nat))

/-- The start of a MIGRATE (R504, R505). -/
def eMigrate (w : Who) (o : Op) : Eng MoveStart := do
  let i := o.f 24 8
  let b := o.f 32 1
  if o.nslots ≠ 1 ∨ !o.zero 33 31 then eFail 0x7F
  let (pa, k) ← eTable w (o.f 16 8)
  let d ← eGet
  let (mb, p) ← ePaRead w (pa + 128) 32
  if p then eFail 0x30
  let devs := memberDevs mb
  if !k.train || decide (k.rows ≤ i) || !devs.contains b || b == d.devnum || d.rf .TLY_DEV_STATE b == 2 then eFail 0x7F
  let t := newWork (o.f 16 8) pa k.ver k false true
  let (dev, valid, _) ← eShard w t i
  if !valid then eFail 0x7F
  let r ← eRowFind w k i
  let young (f : Nat) : Bool := decide (d.gt < f + d.rf .TBL_TIME_MOVE_GRACE w.chamber * 1000)
  let moving := d.tbl.moves.any (fun m => m.2.pa == pa && m.2.idx == i && decide (m.2.stage < 7))
  let go (e : Nat) : Eng MoveStart := do
    let ms ← (devs.filter (fun x => x != d.devnum)).mapM (fun x => do return (x, (← eKsPa w (o.f 16 8) x)))
    return .go pa ((e + 1) % 256) ms
  match r.hit with
  | some (_, x) =>
    match x.kind with
    | 5 => return .wait
    | 3 => if young x.flip ∨ moving = true then return .wait else go x.epoch
    | 4 => if young x.flip then return .wait else eFail 0x7F
    | _ => eFail 0x7F
  | none =>
    if dev ≠ d.devnum then eFail 0x7F
    else if moving then return .wait
    else if r.free.isNone then eFail 0x42
    else go 0

/-- MIGRATE (R504, R505). -/
def Dev.migrate (d : Dev) (id : Nat) : Dev :=
  d.runOp id 0x25 (fun o d =>
    if d.tbl.moves.any (fun m => m.2.op == some id) || !d.jRoom then d
    else d.turn id o (eMigrate (tblWho d id o) o) (fun r o d =>
      match r with
      | .wait => d.setOp id { o with phase := .ready }
      | .go pa e ms =>
        let (d, key) := d.takeTag
        let mv : Move := { op := some id, chamber := o.chamber, tc := o.tc, ks := o.f 16 8, pa := pa, idx := o.f 24 8, b := o.f 32 1, epoch := e,
                           stage := 0, wait := ms, copied := false, seq := 0, acked := 0, flip := 0, members := ms }
        let moves := d.tbl.moves.filter (fun m => !(m.2.pa == pa && m.2.idx == mv.idx && m.2.stage == 7))
        ({ d.setOp id { o with phase := .waiting } with tbl.moves := kput moves key mv }).journal 0x25 (moveJid key)
          (leBytes 8 key ++ leBytes 8 mv.idx ++ leBytes 8 mv.ks)))

/-- The row-map entry of a move's row at A, written. -/
def eMoveEntry (w : Who) (m : Move) (k : KS) (kind dev epoch flip : Nat) : Eng Unit := do
  let r ← eRowFind w k m.idx
  match (match r.hit with | some (n, _) => some n | none => r.free) with
  | some n => eRowPut w k.rowmap n { idx := if kind = 0 then 0 else m.idx, ver := 0, kind := kind, dev := dev, epoch := epoch, flip := flip }
  | none => pure ()

/-- A's entry of a move's row is written (R505, R508). -/
def Dev.moveEntry (d : Dev) (at_ : SvcAt) (m : Move) (kind dev epoch flip : Nat) : Dev :=
  d.svc at_ (.entry m kind dev epoch flip) m.chamber (fun w => do
    eMoveEntry w m (← eKs w m.pa) kind dev epoch flip
    return id)

/-- The epoch under which A held the row. -/
def Move.old (m : Move) : Nat := (m.epoch + 255) % 256

/-- CVA of the row at A while it moves. -/
def eMoveRow (w : Who) (m : Move) (k : KS) : Eng Nat := do
  let v ← eNum w (k.shard * 65536 + 4 * (m.idx / 2 ^ k.span)) 4
  if v % 256 = (← eGet).devnum ∧ m.old = 0 then
    return k.base * 65536 + (v / 512 * 2 ^ k.span + m.idx % 2 ^ k.span) * rowPitch k.rowb
  let r ← eRowFind w k m.idx
  return match r.hit with | some (n, _) => rowData k.rowmap r.log n (rowPitch k.rowb) | none => 0

/-- Sends a move's TCTL to members. -/
def Dev.moveSend (d : Dev) (key code : Nat) (m : Move) (tos : List (Nat × Nat)) (data : Nat → Bytes) : Dev :=
  d.tctlAll code m.chamber m.tc key tos data

/-- MOVE_OPEN is journaled: RESERVE goes to every other member (R505 step 1). -/
def Dev.moveOpened (d : Dev) (key : Nat) : Dev :=
  match kget d.tbl.moves key with
  | none => d
  | some m =>
    if m.stage ≠ 0 then d
    else
      { d with tbl.moves := kput d.tbl.moves key { m with stage := 1 } }.moveSend key 4 m m.wait (fun dev =>
        leBytes 8 m.idx ++ leBytes 1 (b2n (dev == m.b)) ++ leBytes 1 m.b ++ leBytes 1 m.epoch)

/-- A move ends before its flip: RELEASE, MOVE_ABORT, and A keeps the row (R508). -/
def Dev.moveAbort (d : Dev) (key : Nat) (m : Move) (status : Nat) : Dev :=
  let d := d.moveSend key 8 m m.members (fun _ => leBytes 8 m.idx)
  let d := if m.stage = 2 ∨ m.stage = 3 then (if m.old = 0 then d.moveEntry none m 0 0 0 0 else d.moveEntry none m 3 d.devnum m.old 0) else d
  { d with tbl.moves := kdel d.tbl.moves key }.journal 0x27 (moveJid key) (leBytes 8 key) []
    (m.op.map (fun o => (o, status, 0, moveResult m false)))

/-- RESERVE is answered by all: the entry becomes MOVING and the row goes to B (R505 step 2). -/
def Dev.moveCopy (d : Dev) (at_ : SvcAt) (key : Nat) : Dev :=
  match kget d.tbl.moves key with
  | none => d
  | some m =>
    if m.stage ≠ 1 || !m.wait.isEmpty then d
    else d.svc at_ (.copy key) m.chamber (fun w => do
      let r ← eTry (do
        let k ← eKs w m.pa
        let at_ ← eMoveRow w m k
        eMoveEntry w m k 5 0 m.old 0
        return ((← eRead w at_ k.rowb).1, (rowPitch k.rowb + 31) / 32 * 32))
      match r with
      | .error st => return fun d => d.moveAbort key m st
      | .ok (row, n) =>
        let tos := m.members.filter (fun x => x.1 == m.b)
        return fun d => { d with tbl.moves := kput d.tbl.moves key { m with stage := 2, wait := tos } }.moveSend key 5 m tos (fun _ =>
          padTo 32 (leBytes 8 m.idx) ++ padTo n row))

/-- B holds the row and every logged update: MOVE_FLIP is journaled (R505 step 4). -/
def Dev.moveFlipWhen (d : Dev) (key : Nat) : Dev :=
  match kget d.tbl.moves key with
  | some m =>
    if m.stage = 2 ∧ m.copied = true ∧ m.seq ≤ m.acked then
      { d with tbl.moves := kput d.tbl.moves key { m with stage := 3, flip := d.gt } }.journal 0x26 (moveJid key)
        (leBytes 8 key ++ leBytes 1 m.epoch ++ zeros 7 ++ leBytes 8 d.gt)
    else d
  | none => d

/-- ROUTE of a move (R498). -/
def routeData (m : Move) : Bytes := leBytes 8 m.idx ++ leBytes 1 m.b ++ leBytes 1 m.epoch ++ zeros 6 ++ leBytes 8 m.flip

/-- MOVE_FLIP is journaled: A's entry becomes FORWARD and B is told (R505 steps 4, 5). -/
def Dev.moveFlipped (d : Dev) (at_ : SvcAt) (e : JRec) (key : Nat) : Dev :=
  match kget d.tbl.moves key with
  | none => d
  | some m =>
    if m.stage ≠ 3 then d
    else d.svc at_ (.commit e) m.chamber (fun w => do
      eMoveEntry w m (← eKs w m.pa) 4 m.b m.epoch m.flip
      let tos := m.members.filter (fun x => x.1 == m.b)
      return fun d => { d with tbl.moves := kput d.tbl.moves key { m with stage := 4, wait := tos } }.moveSend key 7 m tos (fun _ => routeData m))

/-- A stage of ROUTE is over: the other members, then MOVE_CLOSE (R505 steps 5, 6). -/
def Dev.moveRouted (d : Dev) (key : Nat) (m : Move) : Dev :=
  let rest := if m.stage = 4 then m.members.filter (fun x => x.1 != m.b && !d.left x.1) else []
  if rest.isEmpty then
    { d with tbl.moves := kput d.tbl.moves key { m with stage := 6, wait := [] } }.journal 0x28 (moveJid key) (leBytes 8 key) []
      (m.op.map (fun o => (o, 0, 0, moveResult m true)))
  else { d with tbl.moves := kput d.tbl.moves key { m with stage := 5, wait := rest } }.moveSend key 7 m rest (fun _ => routeData m)

/-- MOVE_CLOSE is journaled; the move is kept while A forwards for it (R507). -/
def Dev.moveClosed (d : Dev) (key : Nat) : Dev := { d with tbl.moves := kmod d.tbl.moves key (fun m => { m with stage := 7, op := none }) }

/-- A member's answer reaches A. -/
def Dev.moveAnswer (d : Dev) (key dev : Nat) (ok : Bool) : Dev :=
  match kget d.tbl.moves key with
  | none => d
  | some m =>
    if !m.wait.any (fun x => x.1 == dev) then d
    else
      let m' := { m with wait := m.wait.filter (fun x => x.1 != dev) }
      let d' := { d with tbl.moves := kput d.tbl.moves key m' }
      match m.stage with
      | 1 => if !ok then d.moveAbort key m 0x42 else d'.moveCopy none key
      | 2 => { d with tbl.moves := kput d.tbl.moves key { m' with copied := true } }.moveFlipWhen key
      | 4 => if m'.wait.isEmpty then d'.moveRouted key m' else d'
      | 5 => if m'.wait.isEmpty then d'.moveRouted key m' else d'
      | _ => d

/-- MOVE_TMO is over (R508). -/
def Dev.moveTimeout (d : Dev) (key : Nat) : Dev :=
  match kget d.tbl.moves key with
  | none => d
  | some m =>
    if m.stage ≤ 2 then d.moveAbort key m 0x50
    else if m.stage = 4 ∨ m.stage = 5 then
      let d := { d with tbl.moves := kput d.tbl.moves key { m with op := none } }
      match m.op with
      | some o => d.endOp o 0x50 0 (moveResult m true)
      | none => d
    else d

/-- ROUTE is sent again to each silent member; one that has left the composition is not awaited (R508). -/
def Dev.routeResend (d : Dev) (key : Nat) : Dev :=
  match kget d.tbl.moves key with
  | none => d
  | some m =>
    if m.stage ≠ 4 ∧ m.stage ≠ 5 then d
    else
      let m := { m with wait := m.wait.filter (fun x => !d.left x.1) }
      if m.wait.isEmpty then d.moveRouted key m
      else { d with tbl.moves := kput d.tbl.moves key m }.moveSend key 7 m m.wait (fun _ => routeData m)

/-- The grace of an earlier move is over: a MIGRATE that waits for it goes on (R504). -/
def Dev.moveGraceEnd (d : Dev) (id : Nat) : Dev := d.migrate id

/-! #### At the other members -/

/-- RESERVE at a member (R505): an entry the member already has for the row stays, as the place to reserve (log 38). -/
def Dev.reserveMsg (d : Dev) (at_ : SvcAt) (port : Nat) (m : Msg) : Dev :=
  d.rowWork at_ port m (fun w k => do
    let i := field m.data 0 8
    let pa := m.addr.toNat
    let mine := bit (field m.data 8 1) 0
    if (← eGet).rf .TLY_STS_SELF = 2 && mine then return rowAnswer port m false
    let r ← eRowFind w k i
    if mine then eMod (fun d =>
      { d with tbl.logs := d.tbl.logs.filter (fun (l : MLog) => !(l.pa == pa && l.idx == i)) ++ [{ pa := pa, idx := i, last := 0, held := [] }] })
    match r.hit, r.free with
    | some _, _ => return rowAnswer port m true
    | none, some n =>
      eRowPut w k.rowmap n { idx := i, ver := 0, kind := 6, dev := field m.data 9 1, epoch := field m.data 10 1, flip := 0 }
      return rowAnswer port m true
    | none, none => return rowAnswer port m false)

/-- RESERVE arrives (R505). -/
def Dev.tctlReserve (d : Dev) (port : Nat) (m : Msg) : Dev := d.onPeer port 0x53 m (fun d m => d.reserveMsg none port m)

/-- CVA of the row that the member's entry holds. -/
def eEntryRow (w : Who) (k : KS) (i : Nat) : Eng (Option Nat) := do
  let r ← eRowFind w k i
  return r.hit.map (fun h => rowData k.rowmap r.log h.1 (rowPitch k.rowb))

/-- COPY at the new owner (R505). -/
def Dev.copyMsg (d : Dev) (at_ : SvcAt) (port : Nat) (m : Msg) : Dev :=
  d.rowWork at_ port m (fun w k => do
    match (← eEntryRow w k (field m.data 0 8)) with
    | some a => eWrite w a ((m.data.drop 32).take k.rowb)
    | none => pure ()
    return rowAnswer port m true)

/-- COPY arrives (R505). -/
def Dev.tctlCopy (d : Dev) (port : Nat) (m : Msg) : Dev := d.onPeer port 0x53 m (fun d m => d.copyMsg none port m)

/-- One LOG record applied at the new owner: an update, or a lookup whose partial is returned (R506). -/
def eLogApply (w : Who) (port : Nat) (m : Msg) (k : KS) : Eng Unit := do
  let b := m.data.drop 32
  match (← eEntryRow w k (field b 0 8)) with
  | none => pure ()
  | some a =>
    if field m.data 9 1 = 1 then
      match lookupEnts b with
      | e :: _ =>
        let (row, p) ← eRow w a k.rowb
        let n := (← eGet).fresh
        eMod Dev.drawn
        let t := { newWork 0 m.addr.toNat k.ver k false false with kept := [(e.bag, 1)], poison := if p then [e.bag] else [] }
        let vs := (rowVals k.fmt k.elems row).mapIdx (fun j v => sumAcc n j [if e.w = 0x3F800000 then v else mulF (decodeF fp32 e.w) v])
        eMod (fun d => d.send (.msg port (trspMsg m true false 0 0 (bagBytes (t.add e.bag vs) e.bag))))
      | [] => pure ()
    else
      match gradEnts b k.elems 0 with
      | e :: _ => eAddRow w a k.fmt k.rowb e.grad e.gp
      | [] => pure ()

/-- LOG records that are next in SEQ order are applied, each once, and answered (R506). -/
def eLogDrain (w : Who) (pa i : Nat) (k : KS) : Nat → Eng Unit
  | 0 => return ()
  | fuel + 1 => do
    let d ← eGet
    match d.tbl.logs.find? (fun l => l.pa == pa && l.idx == i) with
    | none => return ()
    | some l =>
      match l.held.find? (fun h => decide (field h.2.data 0 4 ≤ l.last + 1)) with
      | none => return ()
      | some h =>
        let seq := field h.2.data 0 4
        if seq = l.last + 1 then eLogApply w h.1 h.2 k
        let l' := { l with last := max l.last seq, held := l.held.erase h }
        eMod (fun d => { d with tbl.logs := d.tbl.logs.map (fun x => if x == l then l' else x) }.tctlAnswer (some h.1) h.2 0x80 0 (leBytes 4 l'.last))
        eLogDrain w pa i k fuel

/-- LOG at the new owner (R506). -/
def Dev.logMsg (d : Dev) (at_ : SvcAt) (port : Nat) (m : Msg) : Dev :=
  d.rowWork at_ port m (fun w k => do
    let pa := m.addr.toNat
    let i := field m.data 32 8
    let n := ((((← eGet).tbl.logs.filter (fun l => l.pa == pa && l.idx == i)).map (fun l => l.held.length)).sum)
    eLogDrain w pa i k (n + 1)
    return id)

/-- LOG arrives: it is held for its turn (R506). -/
def Dev.tctlLog (d : Dev) (port : Nat) (m : Msg) : Dev :=
  d.onTctl port m (fun d m =>
    { d with tbl.logs := d.tbl.logs.map (fun (l : MLog) =>
        if l.pa == m.addr.toNat && l.idx == field m.data 32 8 then { l with held := l.held ++ [(port, m)] } else l) }.logMsg none port m)

/-- ROUTE at a member: its entry becomes OWNED or MOVED (R505); a FORWARD entry of an earlier primary stays FORWARD, with the new
route, until the row comes back to it (R507, log 116). -/
def Dev.routeMsg (d : Dev) (at_ : SvcAt) (port : Nat) (m : Msg) : Dev :=
  d.rowWork at_ port m (fun w k => do
    let i := field m.data 0 8
    let dev := field m.data 8 1
    let r ← eRowFind w k i
    let kind := match r.hit with | some (_, e) => e.kind | none => 0
    let me := (← eGet).devnum
    match (match r.hit with | some (n, _) => some n | none => r.free) with
    | some n => eRowPut w k.rowmap n { idx := i, ver := 0, kind := if dev = me then 3 else if kind = 4 then 4 else 2, dev := dev,
                                       epoch := field m.data 9 1, flip := field m.data 16 8 }
    | none => pure ()
    return rowAnswer port m true)

/-- ROUTE arrives (R505). -/
def Dev.tctlRoute (d : Dev) (port : Nat) (m : Msg) : Dev := d.onPeer port 0x53 m (fun d m => d.routeMsg none port m)

/-- RELEASE at a member: its reserved entry is cleared (R508). -/
def Dev.releaseMsg (d : Dev) (at_ : SvcAt) (port : Nat) (m : Msg) : Dev :=
  d.rowWork at_ port m (fun w k => do
    match (← eRowFind w k (field m.data 0 8)).hit with
    | some (n, e) => if e.kind = 6 then eRowPut w k.rowmap n (rEnt (zeros 32))
    | none => pure ()
    return rowAnswer port m true)

/-- RELEASE arrives (R508). -/
def Dev.tctlRelease (d : Dev) (port : Nat) (m : Msg) : Dev := d.onPeer port 0x53 m (fun d m => d.releaseMsg none port m)

/-! ### Answers (R498) -/

/-- DONE of a LOG record: the highest SEQ applied; a forwarded update's part ends (R506). -/
def Dev.logDone (d : Dev) (q : DevReq) (m : Msg) : Dev :=
  let mid := q.line - 2 ^ 62
  let d := { d with tbl.moves := kmod d.tbl.moves mid (fun v => { v with acked := max v.acked (field m.data 0 4) }) }
  let d := match q.why with
    | .op id =>
      if field q.msg.data 9 1 = 1 then d
      else
        let d := d.dropReq q
        match kget d.ops id, kget d.tbl.works id with
        | some o, some t =>
          let t := { t with parts := t.parts.filter (fun p => p.tag != m.tag.toNat), applied := t.applied + 1 }
          let d := { d with tbl.works := kput d.tbl.works id t }
          if d.mayRun id { o with phase := .ready } then d.tblGo id o t else d
        | _, _ => d
    | _ => d.dropReq q
  d.moveFlipWhen mid

/-- An answer to a conversation of this device, from the device that ADDR names. -/
def Dev.tctlReply (d : Dev) (m : Msg) (ok : Bool) : Dev :=
  let key := m.tag.toNat
  let dev := m.addr.toNat / 2 ^ 48
  let ok := ok && m.status == 0
  ((d.pubAnswer key dev ok).moveAnswer key dev ok).replAnswer key dev ok

/-- DONE arrives (R483, R498, R505). -/
def Dev.tctlDone (d : Dev) (port : Nat) (m : Msg) : Dev :=
  d.onPeer port 0x53 m (fun d m =>
    match d.findReq m with
    | some q => if 2 ^ 62 ≤ q.line then d.logDone q m else d.tctlReply m true
    | none => d.tctlReply m true)

/-- MISMATCH arrives: the coordinator abandons the publish (R484). -/
def Dev.tctlMismatch (d : Dev) (port : Nat) (m : Msg) : Dev :=
  d.onPeer port 0x53 m (fun d m => d.pubAnswer m.tag.toNat (m.addr.toNat / 2 ^ 48) false)

/-- REFUSED arrives: the move or replication fails for that member (R503, R508). -/
def Dev.tctlRefused (d : Dev) (port : Nat) (m : Msg) : Dev := d.onPeer port 0x53 m (fun d m => d.tctlReply m false)

/-! ### What follows journal records; recovery (R485, R508) -/

/-- What follows the commit of a table record. -/
def Dev.tblCommitted (d : Dev) (at_ : SvcAt) (e : JRec) : Dev :=
  let key := field e.payload 0 8
  match e.typ with
  | 0x20 => d.pubOpened key
  | 0x21 => d.pubFlipped key
  | 0x22 => { d with tbl.pubs := kdel d.tbl.pubs key }
  | 0x23 => { d with tbl.pubs := kdel d.tbl.pubs key }
  | 0x24 =>
    match field e.payload 8 1 with
    | 0 => d.memberStaged at_ e key
    | 1 => match kget d.tbl.imgs key with
      | some i => if i.port.isNone then d.pubAnswer i.msg.tag.toNat d.devnum true else d
      | none => d
    | _ => d
  | 0x25 => d.moveOpened key
  | 0x26 => d.moveFlipped at_ e key
  | 0x28 => d.moveClosed key
  | _ => d

/-- A member's Keystone is rewritten from its image (R485). -/
def Dev.imageBack (d : Dev) (at_ : SvcAt) (key : Nat) : Dev :=
  match kget d.tbl.imgs key with
  | none => d
  | some i => d.svc at_ (.image key) i.msg.chamber.toNat (fun w => do
    ePaPut w i.msg.addr.toNat (if i.flipped then i.after else i.staged)
    return id)

/-- A member's flip done stands in the journal (R485). -/
def Dev.flipKept (d : Dev) (key : Nat) : Bool :=
  ((d.led.journal.filter (fun r => r.typ == 0x24 && field r.payload 0 8 == key)).getLast?).any (fun r => field r.payload 8 1 == 1)

/-- After a reset: publishes and moves are rolled back or forward, members' Keystones are rewritten from their images; no
descriptor completes (R485, R508). -/
def Dev.tblRecover (d : Dev) : Dev :=
  let d := { d with tbl.works := [], tbl.repls := [], tbl.held := [] }
  let d := d.tbl.imgs.foldl (fun d e =>
    if !e.2.done then { d with tbl.imgs := kdel d.tbl.imgs e.1 }
    else
      let flipped := e.2.flipped && d.flipKept e.1
      { d with tbl.imgs := kput d.tbl.imgs e.1 { e.2 with flipped := flipped, query := !flipped } }.imageBack none e.1) d
  let d := d.tbl.pubs.foldl (fun d e =>
    let p := { e.2 with op := none }
    let d := { d with tbl.pubs := kput d.tbl.pubs e.1 p }
    if p.stage ≤ 2 then d.pubAbandon e.1 p 0
    else if p.stage = 4 ∧ p.wait.isEmpty = false then d.pubAbandon e.1 p 0
    else
      let p := { p with stage := 3, wait := p.members.map Prod.fst }
      { d with tbl.pubs := kput d.tbl.pubs e.1 p }.sendFlips e.1 p) d
  d.tbl.moves.foldl (fun d e =>
    let m := { e.2 with op := none }
    let d := { d with tbl.moves := kput d.tbl.moves e.1 m }
    if m.stage ≤ 3 then d.moveAbort e.1 m 0x20
    else if m.stage ≤ 6 then
      let tos := m.members.filter (fun x => x.1 == m.b)
      { d with tbl.moves := kput d.tbl.moves e.1 { m with stage := 4, wait := tos } }.moveSend e.1 7 m tos (fun _ => routeData m)
    else d) d

end Sys2Proof.Machine
end

