-- ==== Sys2Proof/Machine/Gallery.lean ====
section
/-!
DEFINITION. The Gallery: heads, nodes and their caches, walks, SEARCH and its parts, INSERT, DELETE, COMPACT (13 R515-R541).
-/

namespace Sys2Proof.Machine

/-! ### Heads and nodes (R515-R523) -/

/-- A head (R517). -/
structure GHead where
  root : Nat
  gen : Nat
  active : Bool
  skcode : Nat
  levels : Nat
  vfmt : Nat
  dim : Nat
  re : Nat
  ro : Nat
  boot : Nat
deriving DecidableEq, Repr

def gHead (b : Bytes) : GHead :=
  { root := field b 0 8 % 2 ^ 52, gen := field b 7 1, active := bit (field b 8 1) 0, skcode := field b 9 1 % 4, levels := field b 10 1 % 8 + 1,
    vfmt := field b 11 1 % 16, dim := field b 12 2, re := field b 16 4, ro := field b 20 4, boot := field b 24 2 }

/-- Bytes 16 to 25 of a head, which the device writes (R517, R519). -/
def gCounts (h : GHead) : Bytes := leBytes 4 h.re ++ leBytes 4 h.ro ++ leBytes 2 h.boot

/-- Sketch bytes SB (R517). -/
def skBytes (skcode : Nat) : Nat := 32 * 2 ^ skcode

/-- Bytes of an inner node (R520). -/
def innerSize (skcode : Nat) : Nat := 64 + 256 * skBytes skcode + 2048

/-- Where item records begin in a leaf (R521). -/
def leafItems (skcode : Nat) : Nat := 64 + 4096 * skBytes skcode

/-- The counts repaired after a reset (R471, R519). -/
def GHead.repaired (h : GHead) (boot : Nat) : GHead := if h.boot = boot then h else { h with re := 0, ro := 0, boot := boot }

/-- A count of readers changed, by the parity of GEN (R519). -/
def GHead.count (h : GHead) (gen : Nat) (up : Bool) : GHead :=
  let f (n : Nat) : Nat := if up then u32 (n + 1) else n - 1
  if gen % 2 = 0 then { h with re := f h.re } else { h with ro := f h.ro }

/-- Writes the counts of a head. -/
def eHeadPut (w : Who) (pa : Nat) (h : GHead) : Eng Unit := ePaPut w (pa + 16) (gCounts h)

/-- Reads a head of this device. -/
def eHead (w : Who) (pa : Nat) : Eng GHead := do
  let (b, p) ← ePaRead w pa 64
  if p then eFail 0x30
  return (gHead b).repaired (← eGet).bootGen

/-- Gallery units of a Chamber (R525). -/
def Dev.galUnits (d : Dev) (c : Nat) : List Nat :=
  match kget d.unitsOf c with | some u => (List.range 16).filter (fun i => bit u.2 i) | none => []

/-- The unit that takes a part: the fewest parts queued, the lowest-numbered first (R528). -/
def Dev.galUnit (d : Dev) (c : Nat) : Nat :=
  let n (u : Nat) : Nat := (d.gal.works.filter (fun w => w.2.unit == u && w.2.stage == 0)).length
  match (d.galUnits c).foldl (fun (b : Option Nat) u => match b with | none => some u | some v => if n u < n v then some u else some v) none with
  | some u => u
  | none => 0

/-- A Gallery unit as a requester. -/
def galWho (id : Nat) (o : Op) (unit : Nat) : Who := opWhoOf id o (80 + unit) none

/-- Ones of a byte list's exclusive or: the Hamming distance. -/
def hamming : Bytes → Bytes → Nat
  | a :: l, b :: m => ((List.range 8).filter (fun i => bit (Nat.xor a.toNat b.toNat) i)).length + hamming l m
  | _, _ => 0

/-- Inserts by a strict order, after its equals. -/
def insertBy {α : Type} (lt : α → α → Bool) (x : α) : List α → List α
  | [] => [x]
  | y :: l => if lt x y then x :: y :: l else y :: insertBy lt x l

/-- Sorts, equals in the order in which they came. -/
def sortBy {α : Type} (lt : α → α → Bool) (l : List α) : List α := l.foldl (fun s x => insertBy lt x s) []

/-- The k smallest by a key, ties in the order found (R527). -/
def smallest {α : Type} (key : α → Nat) (k : Nat) (l : List α) : List α := (sortBy (fun a b => decide (key a < key b)) l).take k

/-- A node fails its check (R523). -/
def eBadNode {α : Type} (w : Who) : Eng α := do
  eMod (fun d => d.bump .GAL_CNT_BADNODE w.chamber)
  eFail 0x7F

/-- An inner node passes R523. -/
def innerOk (b : Bytes) (skcode level : Nat) : Bool :=
  let n := field b 4 2
  field b 0 1 == 1 && field b 1 1 == skcode && field b 2 1 == level && field b 3 1 == 0 && decide (1 ≤ n ∧ n ≤ 256) && field b 6 58 == 0 &&
    (List.range n).all (fun j => let c := field b (64 + 256 * skBytes skcode + 8 * j) 8; c % 64 == 0 && decide (c < 2 ^ 52))

/-- A leaf's header passes R523. -/
def leafOk (b : Bytes) (skcode : Nat) : Bool :=
  field b 0 1 == 2 && field b 1 1 == skcode && field b 2 1 == 0 && field b 3 1 == 0 && decide (field b 4 4 ≤ 4096) && field b 16 48 == 0

/-- Drops a head's nodes from a unit's cache when it binds another GEN than the last it saw (R524). -/
def Dev.galBind (d : Dev) (unit head gen : Nat) : Dev :=
  match d.gal.gens.find? (fun g => g.1 == unit && g.2.1 == head) with
  | some g => if g.2.2 = gen then d else
      { d with gal.nodes := d.gal.nodes.filter (fun n => !(n.unit == unit && n.head == head)),
               gal.gens := d.gal.gens.map (fun x => if x.1 == unit && x.2.1 == head then (unit, head, gen) else x) }
  | none => { d with gal.gens := d.gal.gens ++ [(unit, head, gen)] }

/-- Puts a node first in a unit's cache of 4 MiB (R524). -/
def Dev.galCache (d : Dev) (n : CNode) : Dev :=
  let l := n :: d.gal.nodes.filter (fun x => !(x.unit == n.unit && x.chamber == n.chamber && x.head == n.head && x.cva == n.cva))
  let keep := l.foldl (fun (s : List CNode × Nat) x =>
    if x.unit = n.unit then (if s.2 + x.bytes.length ≤ 2 ^ 22 then (s.1 ++ [x], s.2 + x.bytes.length) else s) else (s.1 ++ [x], s.2)) ([], 0)
  { d with gal.nodes := keep.1 }

/-- A write of GAL_CACHE_CLR (R524, R544). -/
def Dev.galCacheClr (d : Dev) (c : Nat) : Dev := { d with gal.nodes := d.gal.nodes.filter (fun n => n.chamber != c) }

/-- Reads an inner node and checks it (R523). Of its lines the header's and those that hold the entries below COUNT are compared (R535). -/
def eNode (w : Who) (t : GWork) (cva level : Nat) : Eng Bytes := do
  let ls ← eReadLines w cva (innerSize t.skcode)
  let b := (ls.map (fun l => l.2.1)).flatten
  let sb := skBytes t.skcode
  let n := field b 4 2
  let used (at_ : Nat) : Bool := at_ < 64 + n * sb || decide (64 + 256 * sb ≤ at_ ∧ at_ < 64 + 256 * sb + 8 * n)
  if ((ls.headD (0, [], false)).2.2) then eFail 0x30
  if (ls.mapIdx (fun i l => l.2.2 && used (64 * i))).any id then eFail 0x30
  if !innerOk b t.skcode level then eBadNode w
  return b

/-- Reads an inner node through the unit's cache, and checks it (R523, R524). -/
def eInner (w : Who) (t : GWork) (cva level : Nat) : Eng Bytes := do
  let d ← eGet
  match d.gal.nodes.find? (fun n => n.unit == t.unit && n.chamber == w.chamber && n.head == t.pa && n.cva == cva) with
  | some n =>
    eMod (fun d => d.galCache n)
    if !innerOk n.bytes t.skcode level then eBadNode w
    return n.bytes
  | none =>
    let b ← eNode w t cva level
    eMod (fun d => d.galCache { unit := t.unit, chamber := w.chamber, head := t.pa, cva := cva, bytes := b })
    return b

/-- The inner levels of a walk: the leaves of the final beam (R527). -/
def eBeam (w : Who) (t : GWork) (sk : Bytes) (width : Nat) : Nat → List Nat → Eng (List Nat)
  | 0, beam => return beam
  | level + 1, beam => do
    let sb := skBytes t.skcode
    let lists ← beam.mapM (fun cva => do
      let b ← eInner w t cva (level + 1)
      return (List.range (field b 4 2)).map (fun j =>
        (hamming sk ((b.drop (64 + j * sb)).take sb), field b (64 + 256 * sb + 8 * j) 8)))
    eBeam w t sk width level ((smallest Prod.fst width lists.flatten).map Prod.snd)

/-- Another operation of the Chamber at work in its Galleries for which `f` holds. -/
def Dev.galOther (d : Dev) (id c : Nat) (f : Op → GWork → Bool) : Bool :=
  d.gal.works.any (fun e => e.1 != id && match kget d.ops e.1 with | some o => o.chamber == c && f o e.2 | none => false)

/-- An operation takes its place in the order of arrival at a leaf (R536). -/
def Dev.galQueue (d : Dev) (id l : Nat) : Dev :=
  let next := d.gal.works.foldl (fun n e => match e.2.waits with | some x => max n (x.2 + 1) | none => n) 0
  { d with gal.works := kmod d.gal.works id (fun t =>
      if t.waits.any (fun x => x.1 == l) then t else { t with waits := some (l, next) }) }

/-- An operation works on a leaf, or no longer does. -/
def Dev.galHold (d : Dev) (id : Nat) (l : Option Nat) : Dev :=
  { d with gal.works := kmod d.gal.works id (fun t => { t with held := l, waits := none }) }

/-- Work of an INSERT, DELETE or COMPACT on a leaf: one after another in the order of arrival; a compaction starts when no walker is
scanning the leaf (R536, R539). -/
def eOnLeaf {α : Type} (w : Who) (l : Nat) (alone : Bool) (m : Eng α) : Eng α := do
  match w.why with
  | .op id =>
    let d ← eGet
    let place := (kget d.gal.works id).bind (fun t => t.waits.filter (fun x => x.1 == l))
    let before (x : Nat × Nat) : Bool := x.1 == l && place.all (fun p => decide (x.2 < p.2))
    if d.galOther id w.chamber (fun _ t => t.held == some l || t.waits.any before || (alone && t.scans.contains l)) then
      eBlock (.leaf l) (fun d => d.galQueue id l)
    else
      let r ← tryCatch m (fun e => match e with
        | .fail st => throw (.fail st)
        | .block b s => throw (.block b (fun d => s (d.galHold id (some l)))))
      eMod (fun d => d.galHold id none)
      return r
  | _ => m

/-- A walker at a leaf: it waits for a compaction that has its hold, and a compaction waits for it (R539). -/
def eWalkLeaf {α : Type} (w : Who) (l : Nat) (m : Eng α) : Eng α := do
  match w.why with
  | .op id =>
    if (← eGet).galOther id w.chamber (fun o t => o.opcode == 0x43 && t.held == some l) then eBlock (.leaf l) (fun d => d)
    else tryCatch m (fun e => match e with
      | .fail st => throw (.fail st)
      | .block b s => throw (.block b (fun d =>
          s { d with gal.works := kmod d.gal.works id (fun t => { t with scans := if t.scans.contains l then t.scans else l :: t.scans }) })))
  | _ => m

/-- A leaf's header, checked. -/
def eLeaf (w : Who) (t : GWork) (cva : Nat) : Eng Bytes := do
  let (b, p) ← eRead w cva 64
  if p then eFail 0x30
  if !leafOk b t.skcode then eBadNode w
  return b

/-- An item record (R522). -/
structure Item where
  slot : Nat
  id : Nat
  vec : Nat
  tomb : Bool
deriving DecidableEq, Repr

/-- The items of a leaf below COUNT, checked (R522, R523). -/
def eItems (w : Who) (t : GWork) (cva n : Nat) : Eng (List Item) := do
  let (b, p) ← eRead w (cva + leafItems t.skcode) (16 * n)
  if p then eFail 0x30
  let is := (List.range n).map (fun s =>
    let v := field b (16 * s + 8) 8
    (({ slot := s, id := field b (16 * s) 8, vec := v % 2 ^ 52, tomb := bit v 63 } : Item), v / 2 ^ 52 % 2 ^ 11 == 0 && v % 32 == 0))
  if is.any (fun x => !x.2) then eBadNode w
  return is.map Prod.fst

/-- The scan of a leaf: candidates and tombstones skipped (R527, R540). -/
def eScan (w : Who) (t : GWork) (sk : Bytes) (cva : Nat) : Eng (List Cand × Nat) := eWalkLeaf w cva (do
  let h ← eLeaf w t cva
  let n := field h 4 4
  let is ← eItems w t cva n
  let sb := skBytes t.skcode
  let (b, p) ← eRead w (cva + 64) (n * sb)
  if p then eFail 0x30
  let live := is.filter (fun i => !i.tomb)
  return (live.map (fun i => { dist := hamming sk ((b.drop (i.slot * sb)).take sb), item := i.id, vec := i.vec }), n - live.length))

/-! ### SEARCH (R526-R535) -/

/-- Fields of a SEARCH body. -/
def Op.gK (o : Op) : Nat := o.f 40 2
def Op.gCand (o : Op) : Nat := o.f 42 2
def Op.gFlag (o : Op) (i : Nat) : Bool := bit (o.f 45 1) i

/-- A Gallery descriptor's ranges and reserved bytes (R525, R526, R536-R538). -/
def galBad (o : Op) : Bool :=
  o.nslots != 1 || o.nfz || o.f 16 8 % 2 ^ 24 != 0 || decide (2 ^ 52 < o.f 16 8 + 2 ^ 24) ||
  (match o.opcode with
   | 0x40 => o.f 24 8 % 64 != 0 || o.f 32 8 % 64 != 0 || decide (2 ^ 52 < o.f 24 8 + 8320 ∨ 2 ^ 52 < o.f 32 8 + 16 * o.gK) ||
       !decide (1 ≤ o.gK ∧ o.gK ≤ 1024 ∧ o.gK ≤ o.gCand ∧ o.gCand ≤ 16384) || !decide (1 ≤ o.f 44 1 ∧ o.f 44 1 ≤ 64) || decide (16 ≤ o.f 45 1) ||
       !o.zero 46 18
   | 0x41 => o.f 24 8 % 32 != 0 || o.f 40 8 % 32 != 0 || o.f 48 8 % 64 != 0 || decide (2 ^ 52 ≤ o.f 24 8 ∨ 2 ^ 52 ≤ o.f 40 8 ∨ 2 ^ 52 ≤ o.f 48 8) ||
       !decide (1 ≤ o.f 56 1 ∧ o.f 56 1 ≤ 8) || !o.zero 57 7
   | 0x42 => !o.zero 43 5 || !o.zero 56 8 || o.f 32 8 % 64 != 0 || decide (2 ^ 52 ≤ o.f 32 8) ||
       (o.f 32 8 == 0 && (!decide (1 ≤ o.f 42 1 ∧ o.f 42 1 ≤ 8) || o.f 48 8 % 32 != 0 || decide (2 ^ 52 ≤ o.f 48 8)))
   | _ => !decide (1 ≤ o.f 24 2 ∧ o.f 24 2 ≤ 4096) || !o.zero 26 38)

/-- Formats of R517. -/
def vecFmtOk (f : Nat) : Bool := decide (1 ≤ f ∧ f ≤ 4) || f == 0xA

/-- Binds an operation to the head's tree and counts it (R519, R525). -/
def eGalBind (w : Who) (pa : Nat) : Eng GWork := do
  let d ← eGet
  let h ← eHead w pa
  if !h.active || h.skcode == 3 || decide (6 < h.levels) || !vecFmtOk h.vfmt || !decide (32 ≤ h.dim ∧ h.dim ≤ 4096) || h.dim % 32 != 0 ||
      h.root % 64 != 0 then eFail 0x7F
  eHeadPut w pa (h.count h.gen true)
  let u := d.galUnit w.chamber
  eMod (fun d => d.galBind u pa h.gen)
  return { pa := pa, root := h.root, gen := h.gen, skcode := h.skcode, levels := h.levels, vfmt := h.vfmt, dim := h.dim, unit := u, sk := [],
           vec := [], stage := 0, cands := [], tombs := 0, ents := [], parts := [], ok := 0, bad := 0, status := 0, fell := false,
           late := false, leaves := [], held := none, waits := none, scans := [] }

/-- Binds an operation admitted here, at the head page of this device (R515). -/
def eGalStart (w : Who) (o : Op) : Eng GWork := do
  let d ← eGet
  if galBad o || (d.galUnits w.chamber).isEmpty then eFail 0x7F
  let pa ← eOwnKs w (o.f 16 8)
  eGalBind w pa

/-- A reader of a tree leaves (R519). -/
def Dev.galUnread (d : Dev) (at_ : SvcAt) (c pa gen : Nat) : Dev :=
  d.svc at_ (.galUnread c pa gen) c (fun w => do
    let h ← eHead w pa
    eHeadPut w pa (h.count gen false)
    return id)

/-- A work that ends gives back its reader (R519). -/
def Dev.galForget (d : Dev) (id : Nat) : Dev :=
  match kget d.gal.works id, kget d.ops id with
  | some t, some o => { d with gal.works := kdel d.gal.works id }.galUnread none o.chamber t.pa t.gen
  | _, _ => { d with gal.works := kdel d.gal.works id }

/-- Elements of a vector as exact values. -/
def vecVals (fmt dim : Nat) (b : Bytes) : List FV := (List.range dim).map (fun e => valOf fmt (elemAt fmt b e))

/-- The score of a vector as FP32 (R529), numbers left open drawn from `n`. -/
def scoreOf (n fmt dim metric : Nat) (q x : Bytes) : Nat :=
  let qs := vecVals fmt dim q
  let xs := vecVals fmt dim x
  let pairs := qs.zip xs
  if fmt = 0xA then
    let i := (List.range dim).foldl (fun (s : Int) e =>
      let a := toInt 8 (elemAt fmt q e)
      let b := toInt 8 (elemAt fmt x e)
      s + (if metric = 0 then a * b else (a - b) * (a - b))) 0
    encodeF fp32 false (intF (toInt 32 (ofInt 32 i)))
  else
    sumAcc n 0 (pairs.mapIdx (fun j p =>
      let k := 2 ^ 30 + 4 * j
      if metric = 0 then maybe32 n k (mulF p.1 p.2)
      else
        let s := maybe32 n k (addF p.1 (negF p.2))
        maybe32 n (k + 1) (mulF s s)))

/-- The order of result entries (R532). -/
def entLt (metric : Nat) (a b : GEnt) : Bool :=
  let va := decodeF fp32 a.score
  let vb := decodeF fp32 b.score
  let nan (v : FV) : Bool := match v with | .nan => true | _ => false
  let first := if a.ham != b.ham then some (!a.ham)
    else if a.ham then (if ltF va vb then some true else if ltF vb va then some false else none)
    else if nan va != nan vb then some (nan vb)
    else if nan va then none
    else if ltF va vb then some (metric == 1) else if ltF vb va then some (metric == 0) else none
  match first with
  | some r => r
  | none => decide (a.item < b.item) || (a.item == b.item && decide (a.dev < b.dev))

/-- The first entry of each ID (R532). -/
def dedupIds (l : List GEnt) : List GEnt :=
  l.foldl (fun s e => if s.any (fun x => x.item == e.item) then s else s ++ [e]) []

/-- The walk of a part (R527): its candidates and tombstones. -/
def eGalWalk (w : Who) (t : GWork) (beam cand : Nat) : Eng GWork := do
  let leaves ← eBeam w t t.sk beam (t.levels - 1) [t.root]
  let rs ← leaves.mapM (fun l => eScan w t t.sk l)
  let tombs := (rs.map Prod.snd).sum
  eMod (fun d => d.bump .GAL_TOMB_CNT_SLOTS w.chamber tombs)
  return { t with stage := 1, scans := [], cands := smallest Cand.dist cand (rs.map Prod.fst).flatten, tombs := tombs }

/-- The re-rank of a part on Masons (R529, R530). -/
def eRerank (w : Who) (t : GWork) (k metric : Nat) (ms : List Nat) : Eng GWork := do
  let eb := tblEb t.vfmt
  let dev := (← eGet).devnum
  let es ← t.cands.mapM (fun c => do
    let (x, p) ← eRead w c.vec (t.dim * eb)
    if p then eFail 0x30
    let n := (← eGet).fresh
    eMod Dev.drawn
    return ({ item := c.item, score := scoreOf n t.vfmt t.dim metric t.vec x, dev := dev, ham := false } : GEnt))
  eMod (fun d => ms.foldl (fun d k => d.masonUsed k) d)
  return { t with stage := 2, ents := t.ents ++ (sortBy (entLt metric) es).take k, ok := t.ok + 1 }

/-- The fallback of a part: Hamming order (R531). -/
def GWork.hammed (t : GWork) (dev k : Nat) : GWork :=
  let es := (t.cands.take k).map (fun c =>
    ({ item := c.item, score := encodeF fp32 false (intF c.dist), dev := dev, ham := true } : GEnt))
  { t with stage := 2, ents := t.ents ++ es, ok := t.ok + 1, fell := true }

/-- Result entries as bytes (R533). -/
def entsBytes (l : List GEnt) : Bytes :=
  (l.map (fun e => leBytes 8 e.item ++ leBytes 4 e.score ++ leBytes 1 e.dev ++ leBytes 1 (b2n e.ham) ++ [0, 0])).flatten

/-- GRSP (R534). -/
def grspMsg (q : Msg) (status entries tombs : Nat) (data : Bytes) : Msg :=
  { hMsg 0x59 2 q.chamber.toNat (entries * 2 ^ 16 + tombs % 2 ^ 32 * 2 ^ 32) data with
      tc := q.tc, af := q.af, addr := q.addr, src := 0xFFFF, dst := 0xFFFF, tag := q.tag, status := BitVec.ofNat 8 status }

/-- The end of a SEARCH at its origin: entries are merged and written (R532, R533, R535). -/
def Dev.searchEnd (d : Dev) (id : Nat) (o : Op) (t : GWork) : Dev :=
  let metric := o.f 45 1 % 2
  let all := sortBy (entLt metric) t.ents
  let out := (if o.gFlag 1 then dedupIds all else all).take o.gK
  d.turn id o (do
      tryCatch (do
          eWrite (galWho id o t.unit) (o.f 32 8) (entsBytes out)
          return 0)
        (fun e => match e with
          | .fail st => return st
          | .block b s => throw (.block b s)))
    (fun st o d =>
      let status := worseStatus t.status st
      let res := t.tombs % 2 ^ 32 + t.ok % 256 * 2 ^ 32 + t.bad % 256 * 2 ^ 40
      (d.galForget id).finishOp id o { status := status, count := if status < 0x20 then out.length else o.lines, result := res, fallback := t.fell })

/-- The part of this member is over: GRSP for another's, the merge when every part has answered (R532, R535). -/
def Dev.galPartOver (d : Dev) (id : Nat) (o : Op) (t : GWork) : Dev :=
  let d := { d.setOp id { o with phase := .ready } with gal.works := kput d.gal.works id t }
  match o.reply with
  | some (p, q) =>
    let es := if t.status = 0 then t.ents else []
    let d := if t.status = 0x30 then d.logEvent { kind := 0x11, u := true, tag := o.chamber, detail := 0x40 } else d
    (((d.galForget id).freeOp id o).send (.msg p (grspMsg q t.status es.length t.tombs (entsBytes es))))
  | none => if t.parts.isEmpty then d.searchEnd id o t else d

/-- A part that fails ends with its status (R535). -/
def GWork.failed (t : GWork) (st : Nat) : GWork := { t with stage := 2, status := worseStatus t.status st, bad := t.bad + 1 }

/-- One turn of a SEARCH or of a part: walk, re-rank, merge (R527-R531). -/
def Dev.galGo (d : Dev) (id : Nat) (o : Op) (t : GWork) : Dev :=
  let gone := o.ans.filter (fun a => decide (2 ^ 61 ≤ a.line ∧ a.line < 2 ^ 62))
  let lost := t.parts.filter (fun p => gone.any (fun a => a.line == 2 ^ 61 + p))
  let t := { t with parts := t.parts.filter (fun p => !lost.contains p), bad := t.bad + lost.length,
                    status := gone.foldl (fun (s : Nat) (a : Ans) => worseStatus s a.status) t.status }
  let o := { o with ans := o.ans.filter (fun a => decide (a.line < 2 ^ 61)) }
  let w := galWho id o t.unit
  let caught (m : Eng GWork) : Eng GWork := tryCatch m (fun e => match e with
    | .fail st => return t.failed st
    | .block b s => throw (.block b s))
  let save (d : Dev) (o : Op) (t : GWork) : Dev := { d.setOp id { o with phase := .ready } with gal.works := kput d.gal.works id t }
  let rerank (d : Dev) (o : Op) (t : GWork) : Dev :=
    if t.stage ≠ 1 then d.galPartOver id o t
    else
      let c := o.chamber
      let none_ := d.rf .GAL_CFG_MCOUNT c == 0
      if o.gFlag 2 && (none_ || t.late) then
        (d.bump .GAL_CNT_FALLBACK c).galPartOver id o (t.hammed d.devnum o.gK)
      else
        let ms := d.takeMasons o (d.rf .GAL_CFG_MFIRST c) (d.rf .GAL_CFG_MCOUNT c)
        if ms.isEmpty then save d o t
        else
          let wm : Who := { masonWho c (ms.headD 0) 0 false with why := w.why }
          (save d o t).turn id o (tryCatch (eRerank wm t o.gK (o.f 45 1 % 2) ms) (fun e => match e with
              | .fail st => return t.failed st
              | .block b s => throw (.block b s)))
            (fun t o d => d.galPartOver id o t)
  match t.stage with
  | 0 => (save d o t).turn id o (caught (eGalWalk w t (o.f 44 1) o.gCand)) (fun t o d => rerank d o t)
  | 1 => rerank d o t
  | _ => d.galPartOver id o t

/-- An operation admitted here binds the head's tree: a SEARCH has its query still to read (stage 8), another is ready to work
(R519, R525, R531). -/
def eGalAdmit (w : Who) (o : Op) : Eng GWork := do
  if o.opcode = 0x40 ∧ (← eGet).rf .GAL_CFG_MCOUNT w.chamber = 0 ∧ o.gFlag 2 = false then eFail 0x7F
  return { (← eGalStart w o) with stage := if o.opcode = 0x40 then 8 else 2 }

/-- An operation as the requester that binds its tree: COMPACT is the service cores' (R538). -/
def Dev.galWhoOf (d : Dev) (id : Nat) (o : Op) : Who := if o.opcode = 0x43 then opWhoOf id o 97 none else galWho id o (d.galUnit o.chamber)

/-- A Gallery operation is bound to its tree (R519). -/
def Dev.galBindOp (d : Dev) (id : Nat) (o : Op) : Dev :=
  d.bindNow id o (eGalAdmit (d.galWhoOf id o) o) (fun t d => { d with gal.works := kput d.gal.works id t })

/-- A Gallery operation in its turn: bound if it could not be at its admission, then at work. -/
def Dev.galTurn (d : Dev) (id : Nat) (o : Op) (go : Dev → Op → GWork → Dev) : Dev :=
  match kget d.gal.works id with
  | some t => go d o t
  | none => d.unbound id o (fun d =>
    let d := d.galBindOp id o
    match kget d.gal.works id, kget d.ops id with
    | some t, some o => go d o t
    | _, _ => d)

/-- A descriptor fetch completes; a lookup or a Gallery operation that it admits binds its version or its tree (R519, 06 R237,
12 R479). -/
def Dev.descriptorFetched (d : Dev) (id : Nat) : Dev :=
  let d := d.fetchEnd id
  match kget d.ops id with
  | none => d
  | some o =>
    if o.phase ≠ .ready ∨ o.unfetched = true then d
    else if o.opcode = 0x20 ∨ o.opcode = 0x21 then d.tblBind id o
    else if 0x40 ≤ o.opcode ∧ o.opcode ≤ 0x43 then d.galBindOp id o
    else d

/-- A bound SEARCH reads its query, and finds the head of every other member (R526, R532). -/
def eSearch (w : Who) (o : Op) (t : GWork) : Eng (GWork × List Nat) := do
  let (sk, p1) ← eRead w (o.f 24 8) (skBytes t.skcode)
  let (v, p2) ← eRead w (o.f 24 8 + 128) (t.dim * tblEb t.vfmt)
  let (mb, p) ← ePaRead w (t.pa + 64) 32
  if p1 || p2 || p then eFail 0x30
  let self := (← eGet).devnum
  let others := if o.gFlag 3 then [] else (memberDevs mb).filter (fun x => x != self)
  let pas ← others.mapM (fun x => eKsPa w (o.f 16 8) x)
  return ({ t with sk := sk, vec := v, stage := 0 }, pas)

/-- A part of another member's SEARCH binds the head that its GQRY names, and walks (R519, R534). -/
def Dev.galPart (d : Dev) (id : Nat) (o : Op) : Dev :=
  match o.reply with
  | none => d
  | some (p, q) =>
    d.turn id o (tryCatch (do return Except.ok (← eGalBind (galWho id o (d.galUnit o.chamber)) q.addr.toNat)) (fun e => match e with
        | .fail st => return Except.error st
        | .block b s => throw (.block b s)))
      (fun r o d =>
        match r with
        | .error st => (d.freeOp id o).send (.msg p (grspMsg q st 0 0 []))
        | .ok t =>
          let sb := skBytes t.skcode
          d.galGo id o { t with sk := (q.data.drop 64).take sb, vec := (q.data.drop (64 + sb)).take (t.dim * tblEb t.vfmt) })

/-- SEARCH, or a part of another member's (R526-R535). -/
def Dev.search (d : Dev) (id : Nat) : Dev :=
  let opc := match kget d.ops id with | some o => (if o.opcode = 0x140 then 0x140 else 0x40) | none => 0x40
  d.runOp id opc (fun o d =>
    if o.opcode = 0x140 then
      match kget d.gal.works id with
      | some t => d.galGo id o t
      | none => d.galPart id o
    else d.galTurn id o (fun d o t =>
      if t.stage ≠ 8 then d.galGo id o t
      else d.turn id o (eTry (eSearch (galWho id o t.unit) o t)) (fun r o d =>
       match r with
       | .error st => (d.galForget id).finishOp id o { status := st }
       | .ok (t, pas) =>
        let (d, t) := pas.foldl (fun (x : Dev × GWork) pa =>
          let m := tblMsg 0x58 0 o.chamber o.tc pa 0 (padTo 64 o.body ++ t.sk ++ t.vec)
          let (d, tag) := x.1.tblAsk m (.op id) (fun t => 2 ^ 61 + t)
          (d, { x.2 with parts := x.2.parts ++ [tag] })) (d, t)
        d.galGo id o t)))

/-- No re-rank Mason could be taken within GAL_CFG.WAIT of the part's start (R531). -/
def Dev.galleryWait (d : Dev) (id : Nat) : Dev :=
  Dev.search { d with gal.works := kmod d.gal.works id (fun t => { t with late := true }) } id

/-- MRT_REQ_TMO / 2 has passed while a part runs for another member's SEARCH: its origin restarts its timer (R534, R535). -/
def Dev.galHoldOn (d : Dev) (id : Nat) : Dev :=
  match kget d.ops id with
  | some o =>
    match o.reply with
    | some (p, q) => if o.opcode = 0x140 then d.send (.msg p { ansMsg 0x22 2 q with args := 1 }) else d
    | none => d
  | none => d

/-- A HOLD falls due: for a request at its home, or for the part of a SEARCH, which the number 2^40 + its operation names (log 159). -/
def Dev.holdDue (d : Dev) (id : Nat) : Dev := if 2 ^ 40 ≤ id then d.galHoldOn (id - 2 ^ 40) else d.hold id

/-- GQRY arrives: the member runs its part (R534). -/
def Dev.gqry (d : Dev) (port : Nat) (m : Msg) : Dev :=
  d.onPeer port 0x58 m (fun d m =>
    match d.peerChm port m with
    | .error d => d
    | .ok () =>
      let c := m.chamber.toNat
      let pa := m.addr.toNat
      let fail (d : Dev) (st : Nat) : Dev := d.send (.msg port (grspMsg m st 0 0 []))
      if d.route pa ≠ .here ∨ pa % 64 ≠ 0 ∨ (d.galUnits c).isEmpty = true then fail d 0x7F
      else
        let id := d.nextOp
        let b := m.data.take 64
        let o : Op :=
          { chamber := c, ring := 64, idx := 0, nslots := 1, opcode := 0x140, tag := 0, sig := false, fence := false, nfz := false,
            tc := m.tc.toNat, body := b, phase := .ready, admitted := d.gt, part := 0, lines := 0, nfzLines := 0, poison := false,
            fallback := false, unstaged := false, applied := false, ans := [], seen := [], reply := some (port, m), portal := none,
            acc := 0, acc2 := 0, acc3 := 0 }
        { d with ops := kput d.ops id o, nextOp := id + 1 }.galPart id o)

/-- GRSP arrives at the origin (R535). -/
def Dev.grsp (d : Dev) (port : Nat) (m : Msg) : Dev :=
  d.onPeer port 0x59 m (fun d m =>
    match d.findReq m with
    | none => d.bump .MRT_CNT_LATE
    | some q =>
      match q.why with
      | .op id =>
        match kget d.ops id, kget d.gal.works id with
        | some o, some t =>
          let a := m.args.toNat
          let n := a / 2 ^ 16 % 2 ^ 16
          let es := (List.range n).map (fun i =>
            ({ item := field m.data (16 * i) 8, score := field m.data (16 * i + 8) 4, dev := field m.data (16 * i + 12) 1,
               ham := bit (field m.data (16 * i + 13) 1) 0 } : GEnt))
          let st := m.status.toNat
          let t := { t with parts := t.parts.filter (fun p => p != m.tag.toNat) }
          let t := if st = 0 then { t with ents := t.ents ++ es, tombs := t.tombs + a / 2 ^ 32, ok := t.ok + 1,
                                           fell := t.fell || es.any (fun e => e.ham) }
                   else { t with status := worseStatus t.status st, bad := t.bad + 1 }
          let d := { d.dropReq q with gal.works := kput d.gal.works id t }
          if t.stage = 2 ∧ t.parts.isEmpty = true then d.searchEnd id o t else d
        | _, _ => d.dropReq q
      | _ => d)

/-! ### INSERT, DELETE, COMPACT (R536-R539) -/

/-- The leaves that an INSERT or a DELETE by walk reaches (R536, R537). -/
def eReach (w : Who) (t : GWork) (sketch ibeam : Nat) : Eng (List Nat) := do
  let (sk, p) ← eRead w sketch (skBytes t.skcode)
  if p then eFail 0x30
  eBeam w t sk ibeam (t.levels - 1) [t.root]

/-- Writes a leaf's header. -/
def eLeafPut (w : Who) (cva : Nat) (h : Bytes) (count version tombs : Nat) : Eng Unit :=
  eWrite w cva (putBytes h 4 (leBytes 4 count ++ leBytes 4 version ++ leBytes 4 tombs))

/-- Steps 1 to 3 of an INSERT into a leaf (R536); none where the leaf has no room. -/
def eInsert (w : Who) (t : GWork) (o : Op) (l : Nat) : Eng (Option Done) := do
  let h ← eLeaf w t l
  let n := field h 4 4
  if 4096 ≤ n then return none
  let sb := skBytes t.skcode
  let (sk, p) ← eRead w (o.f 24 8) sb
  eWriteMarked w (l + 64 + n * sb) sk (fun _ => p)
  eWrite w (l + leafItems t.skcode + 16 * n) (leBytes 8 (o.f 32 8) ++ leBytes 8 (o.f 40 8))
  eLeafPut w l h (n + 1) (u32 (field h 8 4 + 1)) (field h 12 4)
  return some { count := 1, result := l + n * 2 ^ 52 }

/-- The first leaf with room among those an INSERT reaches (R536); the leaf that it has begun to change stays its leaf. -/
def eLeafRoom (w : Who) (t : GWork) (o : Op) : Eng (Option Nat) := do
  match t.held with
  | some l => return some l
  | none =>
    if o.f 48 8 ≠ 0 then return some (o.f 48 8)
    let leaves ← eReach w t (o.f 24 8) (o.f 56 1)
    let hs ← leaves.mapM (fun l => eWalkLeaf w l (do return (l, field (← eLeaf w t l) 4 4)))
    return (hs.find? (fun h => decide (h.2 < 4096))).map Prod.fst

/-- INSERT (R536). -/
def Dev.galInsert (d : Dev) (id : Nat) : Dev :=
  d.runOp id 0x41 (fun o d => d.galTurn id o (fun d o t =>
    let w := galWho id o t.unit
    d.turn id o (eDone (do
        match (← eLeafRoom w t o) with
        | some l =>
          match (← eOnLeaf w l false (eInsert w t o l)) with
          | some r => return r
          | none => pure ()
        | none => pure ()
        eMod (fun d => d.bump .GAL_CNT_FULL o.chamber)
        eFail 0x42)) (fun r o d => (d.galForget id).finishOp id o r)))

/-- Tombstones items of a leaf: TOMB of each, then TOMBS in the header (R537). -/
def eTomb (w : Who) (t : GWork) (l : Nat) (h : Bytes) (is : List Item) : Eng Unit := do
  for i in is do
    eWrite w (l + leafItems t.skcode + 16 * i.slot + 8) (leBytes 8 (i.vec + 2 ^ 63))
  if !is.isEmpty then eLeafPut w l h (field h 4 4) (field h 8 4) (field h 12 4 + is.length)

/-- The items of one leaf that a DELETE names are tombstoned (R537): how many. An item already tombstoned is not there to delete
(log 39). -/
def eDelete (w : Who) (t : GWork) (o : Op) (l : Nat) : Eng Nat := do
  let h ← eLeaf w t l
  let n := field h 4 4
  let slot (s : Nat) : Bool := o.f 32 8 == 0 || s == o.f 40 2
  if o.f 32 8 ≠ 0 ∧ n ≤ o.f 40 2 then return 0
  let hit := (← eItems w t l n).filter (fun i => slot i.slot && i.id == o.f 24 8 && !i.tomb)
  eTomb w t l h hit
  return hit.length

/-- A DELETE visits its leaves, `o.acc` items tombstoned so far (R537). -/
def Dev.deleteLeaves (id : Nat) (t : GWork) : List Nat → Dev → Op → Dev
  | [], d, o =>
    let d := if o.f 32 8 ≠ 0 ∧ o.acc = 0 then d.bump .GAL_CNT_STALE o.chamber else d
    (d.galForget id).finishOp id o { count := o.acc }
  | l :: rest, d, o =>
    let w := galWho id o t.unit
    let d := { d.setOp id o with gal.works := kmod d.gal.works id (fun t => { t with stage := 3, leaves := l :: rest }) }
    d.turn id o (eTry (eOnLeaf w l false (eDelete w t o l))) (fun r o d =>
      match r with
      | .ok n => Dev.deleteLeaves id t rest d { o with acc := o.acc + n }
      | .error st => (d.galForget id).finishOp id o { status := st, count := if st = 0x30 ∨ st = 0x40 ∨ st = 0x41 ∨ st = 0x50 then o.lines else 0 })

/-- DELETE (R537): by slot at its leaf, or at the leaves that its walk reaches. -/
def Dev.galDelete (d : Dev) (id : Nat) : Dev :=
  d.runOp id 0x42 (fun o d => d.galTurn id o (fun d o t =>
    if t.stage = 3 then Dev.deleteLeaves id t t.leaves d o
    else if o.f 32 8 ≠ 0 then Dev.deleteLeaves id t [o.f 32 8] d o
    else d.turn id o (eTry (eReach (galWho id o t.unit) t (o.f 48 8) (o.f 42 1))) (fun r o d =>
      match r with
      | .ok ls => Dev.deleteLeaves id t ls d o
      | .error st => (d.galForget id).finishOp id o { status := st })))

/-- Every leaf below a node, as the service cores find them (R538). -/
def eLeaves (w : Who) (t : GWork) : Nat → List Nat → Eng (List Nat)
  | 0, ls => return ls
  | level + 1, ls => do
    let next ← ls.mapM (fun cva => do
      let b ← eNode w t cva (level + 1)
      return (List.range (field b 4 2)).map (fun j => field b (64 + 256 * skBytes t.skcode + 8 * j) 8))
    eLeaves w t level next.flatten

/-- The place of the next leaf to compact, from the `i`-th on (R538). -/
def eNextLeaf (w : Who) (t : GWork) (min_ : Nat) : List Nat → Nat → Eng (Option (Nat × Nat))
  | [], _ => return none
  | l :: rest, i => do
    let h ← eLeaf w t l
    if min_ ≤ field h 12 4 then return some (i, l) else eNextLeaf w t min_ rest (i + 1)

/-- Compacts one leaf (R538): items removed. -/
def eCompact (w : Who) (t : GWork) (l : Nat) : Eng Nat := do
  let h ← eLeaf w t l
  let n := field h 4 4
  let sb := skBytes t.skcode
  let is ← eItems w t l n
  let live := is.filter (fun i => !i.tomb)
  let lines ← eReadLines w (l + 64) (n * sb)
  let sks := (((lines.map (fun x => x.2.1)).flatten).drop ((l + 64) % 64)).take (n * sb)
  eWriteMarked w (l + 64) ((live.map (fun i => (sks.drop (i.slot * sb)).take sb)).flatten) (fun ln =>
    (live.mapIdx (fun j i => (j, i))).any (fun x => decide ((l + 64 + x.1 * sb) / 64 ≤ ln ∧ ln ≤ (l + 64 + x.1 * sb + sb - 1) / 64) &&
      lineMark lines (l + 64 + x.2.slot * sb)))
  eWrite w (l + leafItems t.skcode) ((live.map (fun i => leBytes 8 i.id ++ leBytes 8 i.vec)).flatten)
  eLeafPut w l h live.length (u32 (field h 8 4 + 1)) 0
  eWrite w (l + 64 + live.length * sb) (zeros ((n - live.length) * sb))
  eWrite w (l + leafItems t.skcode + 16 * live.length) (zeros (16 * (n - live.length)))
  return n - live.length

/-- COMPACT looks for its next leaf, and completes when there is none; `o.part` leaves have been passed, `o.acc` compacted and
`o.acc2` items removed. -/
def Dev.compactNext (d : Dev) (id : Nat) (o : Op) (t : GWork) : Dev :=
  let w := opWhoOf id o 97 none
  d.turn id o (tryCatch (do
        let ls ← eLeaves w t (t.levels - 1) [t.root]
        return Except.ok (← eNextLeaf w t (o.f 24 2) (ls.drop o.part) o.part)) (fun e => match e with
      | .fail st => return Except.error st
      | .block b s => throw (.block b s)))
    (fun r o d =>
      match r with
      | .error st => (d.galForget id).finishOp id o { status := st, count := o.lines }
      | .ok none => (d.galForget id).finishOp id o { count := o.acc2, result := o.acc }
      | .ok (some (i, l)) => d.setOp id { o with phase := .waiting, part := i, acc3 := l })

/-- COMPACT (R538): it visits the leaves and waits for the walkers of one to be compacted. -/
def Dev.compact (d : Dev) (id : Nat) : Dev :=
  d.runOp id 0x43 (fun o d =>
    d.galTurn id o (fun d o t => d.compactNext id o t))

/-- The walkers of a leaf have finished: the compaction takes its hold, compacts it, and goes on (R539). -/
def Dev.compactLeaf (d : Dev) (id : Nat) : Dev :=
  match kget d.ops id, kget d.gal.works id with
  | some o, some t =>
    let go : Bool := match o.phase with | .waiting => true | .blocked b => d.cleared o.chamber o.ans b | _ => false
    if o.opcode ≠ 0x43 ∨ go = false then d
    else
      d.turn id o (tryCatch (do return Except.ok (← eOnLeaf (opWhoOf id o 97 none) o.acc3 true (eCompact (opWhoOf id o 97 none) t o.acc3))) (fun e => match e with
          | .fail st => return Except.error st
          | .block b s => throw (.block b s)))
        (fun r o d =>
          match r with
          | .error st => (d.galForget id).finishOp id o { status := st, count := o.lines }
          | .ok n => d.compactNext id { o with part := o.part + 1, acc := o.acc + 1, acc2 := o.acc2 + n } t)
  | _, _ => d

end Sys2Proof.Machine
end

