-- ==== Sys2Proof/Machine/Network.lean ====
section
/-!
DEFINITION. Network ports: frames received, priority pauses, queue pairs, exported extents, gateway windows, PTP
(14 R545-R561, R570-R577).
-/

namespace Sys2Proof.Machine

/-! ### Frames received (R545-R549) -/

/-- A logical port, numbered 2n + m for EPn.m, exists in its port's mode (R545, R576). -/
def Dev.portUp (d : Dev) (p : Nat) : Bool :=
  match d.rf .NET_EP_CFG_MODE (p / 2) with
  | 1 => p % 2 == 0
  | 2 => true
  | _ => false

/-- The enabled NET_ADDR entry of an address and VLAN; one that names the VLAN comes before one that names none (R547, R548). -/
def Dev.addrEntry (d : Dev) (f : EthFrame) : Option Nat :=
  let is (i : Nat) : Bool := d.rb .NET_ADDR_CFG_EN i && d.rf .NET_ADDR_IP_ADDR i == f.dst.toNat
  ((List.range 64).find? (fun i => is i && d.rb .NET_ADDR_CFG_VLAN_EN i && f.tags == 1 && d.rf .NET_ADDR_CFG_VLAN i == f.vlan.toNat)).or
    ((List.range 64).find? (fun i => is i && !d.rb .NET_ADDR_CFG_VLAN_EN i))

/-- The queue pair of a QPN (R551). -/
def qpOfQpn (n : Nat) : Option Nat := if 0x100 ≤ n ∧ n < 0x1100 then some (n - 0x100) else none

/-- A frame's own service, whatever its address: PTP, ARP and neighbour discovery take the device tag (R548). -/
def frameOwn (f : EthFrame) : Bool :=
  match f.body with
  | .arp => true
  | .nd => true
  | .ptp _ => true
  | .udp _ dport _ => dport == 319#16 || dport == 320#16
  | _ => false

/-- A kind of frame that the ports do not support (R546). -/
def frameExcluded (f : EthFrame) : Bool :=
  decide (1 < f.tags) || f.options || f.fragment ||
    (match f.body with | .tcp => true | .other => true | .roce _ _ .other => true | _ => false)

/-- What becomes of a frame at a logical port (R547, R548). -/
inductive Verdict where
  | drop
  | noAddr
  | accept (tag : Nat)
deriving DecidableEq, Repr

/-- R547, R548. -/
def Dev.verdict (d : Dev) (port : Nat) (f : EthFrame) : Verdict :=
  let entry := d.addrEntry f
  let badPort := match f.body with
    | .udp _ dport _ => !frameOwn f && dport.toNat != d.rf .NET_PTL_DEV_PORT
    | _ => false
  let badQp := match f.body with
    | .roce n _ _ =>
      match qpOfQpn n.toNat with
      | none => true
      | some q => d.rf .NET_QP_STATE q != 1 || (match entry with | some e => d.rf .NET_QP_ADDR q != e | none => false)
    | _ => false
  if !f.fcsOk || decide (d.rf .NET_EP_CFG_MAXFRAME (port / 2) < f.len) || frameExcluded f || badPort || badQp then .drop
  else if frameOwn f then .accept 16
  else match entry with
    | none => .noAddr
    | some e => .accept (d.rf .NET_ADDR_CFG_CHAMBER e)

/-- IEEE 802.1Qbb priority of a frame (R549). -/
def Dev.framePrio (d : Dev) (f : EthFrame) : Nat :=
  if f.tags = 0 then d.rf .NET_DSCP_MAP_PRIO f.dscp.toNat else f.pcp.toNat

/-- The Hub withholds the credit of a share and class: the share is full but for its response cells (03 R114). -/
def Dev.shareFull (d : Dev) (tag tc : Nat) : Bool :=
  let i := tag * 8 + tc
  decide (tc ≤ 5 ∧ 4 * d.rf .HUB_LSHARE_SIZE i - d.rf .HUB_LSHARE_RSP i ≤ d.shareUsed tag tc)

/-- Cells of a frame. -/
def frameCells (f : EthFrame) : Nat := (f.len + 255) / 256

/-- A frame of a paused class that its lossless share has room for is charged to it (03 R112, R114); none where it must wait. -/
def Dev.chargeFrame (d : Dev) (r : RxFrame) : Option (Dev × RxFrame) :=
  let i := r.tag * 8 + r.tc
  let n := frameCells r.frame
  if d.shareUsed r.tag r.tc + n ≤ 4 * d.rf .HUB_LSHARE_SIZE i - d.rf .HUB_LSHARE_RSP i then
    let id := 2 ^ 40 + d.net.nextRx
    some ({ d with net.nextRx := d.net.nextRx + 1,
                   hub.frames := d.hub.frames ++ [{ out := Config.netStop r.port % 8 + 31, share := r.tag, tc := r.tc, rsp := false,
                                                    droppable := false, rank := 0, id := id, left := n, started := false }] },
          { r with hub := some id })
  else none

/-- Frames that wait at their ports for room are charged, the oldest first; one that waits holds back those after it in its share. -/
def Dev.chargeGo (d : Dev) : List RxFrame → List (Nat × Nat) → Dev × List RxFrame
  | [], _ => (d, [])
  | r :: rs, full =>
    let stays (d : Dev) : Dev × List RxFrame :=
      let (d, l) := d.chargeGo rs (full ++ [(r.tag, r.tc)])
      (d, r :: l)
    if r.hub.isSome then
      let (d, l) := d.chargeGo rs full
      (d, r :: l)
    else if full.contains (r.tag, r.tc) then stays d
    else match d.chargeFrame r with
      | none => stays d
      | some (d, r) =>
        let (d, l) := d.chargeGo rs full
        (d, r :: l)

/-- Frames that wait at their ports go on where there is room, and pauses whose share has credit again are released (R549, 03 R114). -/
def Dev.pauseCheck (d : Dev) : Dev :=
  let (d, rx) := d.chargeGo d.net.rx []
  let d := { d with net.rx := rx }
  (d.net.txPause.filter (fun e => !d.shareFull e.2.tag e.2.tc &&
      !d.net.rx.any (fun r => r.hub.isNone && r.tag == e.2.tag && r.tc == e.2.tc))).foldl (fun d e =>
    { d with net.txPause := kdel d.net.txPause e.1 }.send (.pause (e.1 / 8) (e.1 % 8) false)) d

/-- A CNP to the sender of a marked packet, at most one per CNP_GAP and queue pair (R550). -/
def Dev.ceMark (d : Dev) (f : EthFrame) : Dev :=
  match f.body with
  | .roce n _ op =>
    match qpOfQpn n.toNat with
    | some q =>
      let s := d.qp q
      let quiet : Bool := match s.lastCnp with | some t => decide (t + d.rf .NET_CC_CNP_GAP * 1000 ≤ d.gt) | none => true
      if f.ecn = 3 ∧ op ≠ .cnp ∧ quiet = true then
        { d with qps := kput d.qps q { s with lastCnp := some d.gt } }.qpTx q (.rdma q 0x81 0 [])
      else d
    | none => d
  | _ => d

/-- A frame of a class is best-effort: of TC6 and TC7, and of TC3 to TC5 where its priority is not enabled for pause (03 R116, R117). -/
def bestEffort (tc : Nat) (pfc : Bool) : Bool := decide (5 < tc) || !pfc

/-- A frame that R547 accepts: within its priority's pause headroom it waits for its service (R549). -/
def Dev.acceptFrame (d : Dev) (port : Nat) (f : EthFrame) (tag : Nat) : Dev :=
  let prio := d.framePrio f
  let tc := d.rf .NET_DSCP_MAP_TC f.dscp.toNat
  let key := port * 8 + prio
  let pfc := bit (d.rf (if port % 2 = 0 then .NET_EP_CFG_PFC0 else .NET_EP_CFG_PFC1) (port / 2)) prio
  let take (d : Dev) (hub : Option Nat) : Dev :=
    Dev.ceMark { d with net.rx := d.net.rx ++ [{ port := port, frame := f, tag := tag, tc := tc, hub := hub }] } f
  if bestEffort tc pfc then
    /- best-effort: charged to the droppable share of its Chamber on its way to the mesh (03 R117) -/
    let id := 2 ^ 40 + d.net.nextRx
    match d.dropIn (Config.netStop port % 8 + 31) tag tc (frameCells f) id with
    | some d => take { d with net.nextRx := d.net.nextRx + 1 } (some id)
    | none => d.dropped tag tc
  else
  /- charged to the lossless share of its Chamber and class, or held at the port until it has room (03 R112, R114) -/
  let r : RxFrame := { port := port, frame := f, tag := tag, tc := tc, hub := none }
  let room := if d.net.rx.any (fun x => x.hub.isNone && x.tag == tag && x.tc == tc) then none else d.chargeFrame r
  let take (d : Dev) : Dev :=
    match room with
    | some (x, r) => Dev.ceMark { d with hub.frames := x.hub.frames, net.nextRx := x.net.nextRx, net.rx := d.net.rx ++ [r] } f
    | none => take d none
  match kget d.net.txPause key with
  | some p =>
    if 256 * 1024 < p.bytes + f.len then d.bump .NET_CNT_PFC_OVF
    else take { d with net.txPause := kput d.net.txPause key { p with bytes := p.bytes + f.len } }
  | none =>
    /- the pause goes out when the Hub withholds the credit of the share (R114) -/
    let d := take d
    if pfc && (room.isNone || d.shareFull tag tc) then
      { d with net.txPause := kput d.net.txPause key { bytes := 0, tag := tag, tc := tc } }.send (.pause port prio true)
    else d

/-- An Ethernet frame arrives at a logical port (R547-R549). -/
def Dev.ethReceive (d : Dev) (port : Nat) (f : EthFrame) : Dev :=
  if !d.portUp port || d.pwr.warm.isSome then d
  else
    let d := d.pauseCheck
    match d.verdict port f with
    | .drop => d.bump .NET_CNT_DROP
    | .noAddr => d.bump .NET_CNT_NOADDR
    | .accept tag => d.acceptFrame port f tag

/-- The service of a frame takes it from the port; a frame that the port has not yet received is received first, and one that waits at its
port for room in the Hub stays there. -/
def Dev.withFrame (d : Dev) (port : Nat) (f : EthFrame) (k : RxFrame → Dev → Dev) : Dev :=
  let is (r : RxFrame) : Bool := r.port == port && r.frame == f
  let d := if d.net.rx.any is then d.pauseCheck else d.ethReceive port f
  match d.net.rx.find? (fun r => is r && r.hub.isSome) with
  | some r => (k r { d with net.rx := d.net.rx.erase r, hub.frames := d.hub.frames.filter (fun x => r.hub != some x.id) }).pauseCheck
  | none => d

/-- A received pause of a priority; a time of zero ends it (R549). -/
def Dev.pauseEnd (d : Dev) (key : Nat) : Dev :=
  let mine := d.net.held.filter (fun e => e.1 == key)
  let d := { d with net.rxPause := d.net.rxPause.filter (fun k => k != key), net.held := d.net.held.filter (fun e => e.1 != key) }
  mine.foldl (fun d e => d.send e.2) d

/-- A priority pause arrives (R549). -/
def Dev.pfcPause (d : Dev) (port prio quanta : Nat) : Dev :=
  let key := port * 8 + prio
  if !d.portUp port then d
  else if quanta = 0 then (d.pauseEnd key).pauseCheck
  else { d with net.rxPause := if d.net.rxPause.contains key then d.net.rxPause else d.net.rxPause ++ [key] }.pauseCheck

/-- The time of a received pause runs out (R549). -/
def Dev.pauseExpiry (d : Dev) (port prio : Nat) : Dev := (d.pauseEnd (port * 8 + prio)).pauseCheck

/-- ARP, neighbour discovery and echo are answered for bound addresses (R546). -/
def Dev.arpNdEcho (d : Dev) (port : Nat) (f : EthFrame) : Dev :=
  match f.body with
  | .arp | .nd | .echo _ =>
    d.withFrame port f (fun _ d =>
      if (d.addrEntry f).isSome then
        d.netTx port (d.framePrio f) (.eth port { f with src := f.dst, dst := f.src, ecn := 0 })
      else d)
  | _ => d

/-! ### Queue pairs (R550, R551) -/

/-- The opcode of the operation that serves an RDMA READ or WRITE: queue pair in `acc`, PSN in `acc2`, and in `acc3` 1 for a WRITE. -/
def rdmaOp : Nat := 0x150

/-- Line rate of a queue pair's logical port, in units of 100 Mb/s (R545, R550). -/
def Dev.lineRate (d : Dev) (q : Nat) : Nat := if d.rf .NET_EP_CFG_MODE (Config.qpPort q % 8 / 2) = 1 then 8000 else 4000

/-- Answers handed to the operations and bricks of Chamber `c` that wait for a granule. -/
def Dev.granAnswer (d : Dev) (c win pg : Nat) (ans : List Ans) : Dev :=
  let op (o : Op) : Op := match o.phase with
    | .blocked (.granule _ p) => if p == pg && o.chamber == c then { o with ans := o.ans ++ ans } else o
    | _ => o
  let brick (b : QBrick) : QBrick := if b.blk = some (.granule win pg) then { b with ans := b.ans ++ ans } else b
  let mason (m : Mason) : Mason := { m with queues := m.queues.map (fun q => (q.1, q.2.map brick)) }
  { d with ops := d.ops.map (fun e => (e.1, op e.2)),
           masons := d.masons.map (fun e => (e.1, mason e.2)) }

/-- Granules of a page being fetched end: poisoned data for what waits, and the granule is given up (R561). -/
def Dev.fetchFailed (d : Dev) (pg : Nat) : Dev :=
  match kget d.grans pg with
  | none => d
  | some g =>
    let c := g.chamber
    let d := { d with grans := kdel d.grans pg }
    let waits (sl : Slot) : Bool := sl.phase == .gateway && isRead sl.msg.opc && sl.chamber == c && sl.lines.any (fun l => l / 1024 == pg)
    let d := (d.coh.slots.filter (fun e => waits e.2)).foldl (fun d e => d.finishPoison e.1 e.2) d
    let bad : List Ans := (List.range 1024).map (fun i =>
      { line := d.devnum * 2 ^ 42 + pg * 1024 + i, write := false, status := 0,
        data := leBytes 64 (Config.poisonLine (pg * 1024 + i) 0), poison := true, wprot := false })
    let d := d.granAnswer c g.win pg bad
    d.logEvent { kind := 0x0F, u := true, aform := 0, tag := c, detail := 0, addr := d.paOf (pg * 1024) }

/-- An outstanding request of a queue pair ends with a failure, as its user fixes (R551, R558, R561, R567). -/
def Dev.qpReqFailed (d : Dev) (r : QpReq) : Dev :=
  match r.kind with
  | 0 => d.fetchFailed r.what
  | 1 => d.flushFail r.what
  | _ => { d with net.reqs := kmod d.net.reqs r.what (fun p => if p.stage = 2 then { p with stage := 3, bulkFail := true } else p) }

/-- Windows of a queue pair that are enabled. -/
def Dev.winsOf (d : Dev) (q : Nat) : List Nat :=
  (List.range 1024).filter (fun k => d.rb .NET_WIN_EN k && d.rf .NET_WIN_QP k == q)

/-- Every outstanding request of a queue pair ends, and its windows are DOWN (R551, R561). -/
def Dev.qpDown (d : Dev) (q : Nat) : Dev :=
  let sent := (d.qp q).sent
  /- a request of the other end that is being served is answered no more (log 160) -/
  let d := { d with ops := d.ops.filter (fun e => !(e.2.opcode == rdmaOp && e.2.acc == q)) }
  let d := { d with qps := kmod d.qps q (fun s => { s with sent := [] }) }
  let d := (d.winsOf q).foldl (fun d k => d.wf .NET_WIN_STATE k 2) d
  (sent.foldl (fun d r => d.qpReqFailed r) d).slotsGo

/-- A queue pair enters ERROR (R551). -/
def Dev.qpError (d : Dev) (q : Nat) : Dev := ((d.wf .NET_QP_STATE q 2).bump .NET_CNT_QP_ERR).qpDown q

/-- A flush of a window is acknowledged in full: lines of granules being fetched are kept over the fetch (R557, R561). -/
def Dev.flushDone (d : Dev) (key : Nat) : Dev :=
  { d with wins := kmod d.wins key (fun g =>
      { g with flushing := [],
               who := g.who.filter (fun e => (kget g.gather e.1).isSome || (kget g.flushing e.1).isNone),
               after := g.flushing.foldl (fun m e => match kget d.grans (e.1 / 1024) with
                 | some gr => if gr.fetching && gr.chamber == key / 64 then
                     (let old := sget (0, zeros 64) m e.1; kput m e.1 (old.1 ||| e.2.1, mergeMask e.2.1 old.2 e.2.2)) else m
                 | none => m) g.after }) }

/-- A request of a queue pair is acknowledged (R551, R557, R566). -/
def Dev.qpReqDone (d : Dev) (r : QpReq) : Dev :=
  match r.kind with
  | 0 => d
  | 1 =>
    match kget d.wins r.what with
    | none => d
    | some g =>
      let d := { d with wins := kput d.wins r.what { g with pendingWrites := g.pendingWrites - 1 } }
      if g.pendingWrites ≤ 1 then d.flushDone r.what else d
  | _ => { d with net.reqs := kmod d.net.reqs r.what (fun p => if p.stage = 2 then { p with stage := 3 } else p) }

/-- PSN `a` is not after `b`. -/
def psnUpTo (a b : Nat) : Bool := a % 2 ^ 24 == b % 2 ^ 24 || serialAfter 24 b a

/-- Takes the WRITEs acknowledged up to `psn` from a queue pair. -/
def Dev.qpAcked (d : Dev) (q psn : Nat) : Dev :=
  let s := d.qp q
  let got (r : QpReq) : Bool := r.kind != 0 && psnUpTo (r.psn + r.n - 1) psn
  let d := { d with qps := kmod d.qps q (fun s => { s with sent := s.sent.filter (fun r => !got r) }) }
  ((s.sent.filter got).foldl (fun d r => d.qpReqDone r) d).slotsGo

/-- A RoCEv2 packet of a queue pair taken from its port. -/
def Dev.withRoce (d : Dev) (port : Nat) (f : EthFrame) (k : Nat → Nat → RoceOp → Dev → Dev) : Dev :=
  match f.body with
  | .roce n psn op =>
    match qpOfQpn n.toNat with
    | some q => d.withFrame port f (fun _ d => k q psn.toNat op d)
    | none => d.withFrame port f (fun _ d => d)
  | _ => d

/-- An acknowledgement arrives (R551). -/
def Dev.roceAck (d : Dev) (port : Nat) (f : EthFrame) : Dev :=
  match f.body with
  | .roce _ _ .ack => d.withRoce port f (fun q psn _ d => d.qpAcked q psn)
  | _ => d

/-- Requests sent again: a packet for each, from the oldest (R551). -/
def Dev.qpResend (d : Dev) (q : Nat) (rs : List QpReq) : Dev :=
  rs.foldl (fun d r => d.qpTx q (.rdma q (if r.kind = 0 then 0x0C else 0x0A) r.psn r.bytes)) d

/-- A NAK arrives (R551, R561): a sequence error is answered by go-back-N; a remote access error ends a window's request alone, and
any other queue pair's in ERROR (log 42). -/
def Dev.roceNak (d : Dev) (port : Nat) (f : EthFrame) : Dev :=
  match f.body with
  | .roce _ _ .nakSequence => d.withRoce port f (fun q psn _ d =>
      let d := d.qpAcked q ((psn + 2 ^ 24 - 1) % 2 ^ 24)
      d.qpResend q (d.qp q).sent)
  | .roce _ _ .nakAccess => d.withRoce port f (fun q psn _ d =>
      let d := d.qpAcked q ((psn + 2 ^ 24 - 1) % 2 ^ 24)
      match (d.qp q).sent.find? (fun r => psnUpTo r.psn psn && psnUpTo psn (r.psn + r.n - 1)) with
      | none => d
      | some r =>
        if r.kind ≤ 1 then
          ({ d with qps := kmod d.qps q (fun s => { s with sent := s.sent.erase r }) }.qpReqFailed r).slotsGo
        else d.qpError q)
  | _ => d

/-- A CNP arrives: the rate falls (R550). -/
def Dev.cnp (d : Dev) (port : Nat) (f : EthFrame) : Dev :=
  match f.body with
  | .roce _ _ .cnp => d.withRoce port f (fun q _ _ d =>
      let s := d.qp q
      let low : Rat := (d.rf .NET_CC_MIN : Nat)
      let cut : Rat := s.rate * (1 - 1 / (2 ^ d.rf .NET_CC_DEC : Nat))
      { d with qps := kput d.qps q { s with rate := if cut < low then low else cut } })
  | _ => d

/-- INC_TIME has passed with no CNP: the rate rises, up to the line rate (R550). -/
def Dev.rateIncrease (d : Dev) (q : Nat) : Dev :=
  if d.rf .NET_QP_STATE q ≠ 1 then d
  else
    let s := d.qp q
    let top : Rat := (d.lineRate q : Nat)
    let up : Rat := s.rate + (d.rf .NET_CC_INC_STEP : Nat)
    { d with qps := kput d.qps q { s with rate := if top < up then top else up } }

/-- A request has been unacknowledged for NET_QP.TMO: sent again, up to 7 times, then ERROR (R551). -/
def Dev.qpTimeout (d : Dev) (q : Nat) : Dev :=
  let s := d.qp q
  match s.sent with
  | [] => d
  | r :: rs =>
    if d.rf .NET_QP_STATE q ≠ 1 then d
    else if 7 ≤ r.tries then d.qpError q
    else
      let r' := { r with tries := r.tries + 1 }
      { d with qps := kput d.qps q { s with sent := r' :: rs } }.qpResend q [r']

/-- A write of NET_QP.STATE = 0 (R572): what is outstanding ends as in ERROR. -/
def Dev.qpReset (d : Dev) (q : Nat) : Dev :=
  let d := (d.qpDown q).wf .NET_QP_STATE q 0
  { d with qps := kdel d.qps q }

/-- The window caches of the windows in `ks` are dropped (R561). -/
def Dev.dropWinGrans (d : Dev) (ks : List Nat) : Dev :=
  { d with grans := d.grans.filter (fun e => !ks.contains (e.2.chamber * 64 + e.2.win)) }

/-- A write of NET_QP.STATE = 1: from RESET to RTS; its windows are UP again with their cache dropped (R561, R572). -/
def Dev.qpRts (d : Dev) (q : Nat) : Dev :=
  if d.rf .NET_QP_STATE q ≠ 0 then d
  else
    let d := d.wf .NET_QP_STATE q 1
    let d := { d with qps := kput d.qps q
                        { nextPsn := d.rf .NET_QP_SPSN q, rxPsn := d.rf .NET_QP_RPSN q, sent := [], rate := (d.lineRate q : Nat),
                          lastCnp := none, nakked := false } }
    let ks := d.winsOf q
    ((ks.foldl (fun d k => d.wf .NET_WIN_STATE k 1) d).dropWinGrans ks).slotsGo

/-- A write of NET_WIN.EN (R573): a window is UP while its queue pair is in RTS (R561). -/
def Dev.winEnable (d : Dev) (k : Nat) (en : Bool) : Dev :=
  let d := d.wb .NET_WIN_EN k en
  d.wf .NET_WIN_STATE k (if !en then 0 else if d.rf .NET_QP_STATE (d.rf .NET_WIN_QP k) = 1 then 1 else 2)

/-! ### Exported extents (R555) -/

/-- Lines of the byte range of an RDMA request, as local lines. -/
def rdmaLines (va len : Nat) : List Nat := units 64 (va % 2 ^ 48) len

/-- The extent lies in an enabled entry of NET_EXP that allows the request (R555). -/
def Dev.exported (d : Dev) (c rkey n : Nat) (write : Bool) : Bool :=
  (List.range 256).any (fun i =>
    d.rb .NET_EXP_EN i && d.rf .NET_EXP_RKEY i == rkey && d.rf .NET_EXP_CHAMBER i == c && (!write || d.rb .NET_EXP_WR i) &&
    decide (d.rf .NET_EXP_FIRST i ≤ n ∧ n < d.rf .NET_EXP_FIRST i + d.rf .NET_EXP_COUNT i))

/-- What R555 asks of an RDMA READ or WRITE before its extents pass R57 (R555, 06 R220). -/
def Dev.rdmaNamed (d : Dev) (c va rkey len : Nat) (write : Bool) : Bool :=
  d.chmState c == 1 && va / 2 ^ 48 % 256 == d.devnum && decide (va % 2 ^ 48 + len ≤ 2 ^ 48) &&
    (units (2 ^ 28) (va % 2 ^ 48) (max 1 len)).all (fun n => d.exported c rkey n write)

/-- The first extent of an RDMA READ or WRITE that does not pass R57 for its Chamber, and what it meets there. -/
def Dev.rdmaBad (d : Dev) (c va len : Nat) (write : Bool) : Option (Nat × Acc) :=
  ((units (2 ^ 28) (va % 2 ^ 48) (max 1 len)).map (fun n => (n, d.stage4 c n write))).find? (fun x =>
    match x.2 with | .ok | .held => false | _ => true)

/-- A refused RDMA READ or WRITE, where it is a failed Chamber check or meets a LOST extent, is counted and logged as that (02 R57, 06 R222). -/
def Dev.rdmaCheck (d : Dev) (c va len : Nat) (write : Bool) : Dev :=
  match d.rdmaBad c va len write with
  | some (n, .check) => d.failCheck c 0 (d.paOf (n * 2 ^ 22)) 0
  | some (n, .lost) => d.logLost c (n * 2 ^ 22) write
  | _ => d

/-- The work of an RDMA READ or WRITE: each line at its home, in order; poison of a READ ends it (R555, 16 R625). -/
def eRdma (w : Who) (va len : Nat) (data : Bytes) (write : Bool) : Eng Bytes := do
  let x (l : Nat) : Xl := { pa := va / 2 ^ 48 % 256 * 2 ^ 48 + l * 64, cls := .held, t0s := false, level := 0, any := true }
  let parts ← (rdmaLines va len).mapM (fun l => do
    let (lo, k) := unitPart 64 l (va % 2 ^ 48) len
    if write then
      let part := (data.drop (lo - va % 2 ^ 48)).take k
      eWriteHere w (x l) 0 l [{ mask := if k = 64 then fullMask else (2 ^ k - 1) * 2 ^ (lo % 64),
                                data := padTo 64 (zeros (lo % 64) ++ part), poison := false }] false
      return []
    else
      let bs ← eReadHere w (x l) 0 l 1 false (blockMask (l % 1024) 1)
      if bs.any (fun b => b.2) then eFail 0x30
      return (((bs.headD ([], false)).1).drop (lo % 64)).take k)
  return parts.flatten

/-- NAK for a remote access error (R555, 16 R625). -/
def Dev.rdmaNakOnly (d : Dev) (q psn : Nat) : Dev := d.qpTx q (.rdma q 0x11 psn [0x62])

/-- NAK for a remote access error, counted (R555). -/
def Dev.rdmaNak (d : Dev) (q psn : Nat) : Dev := (d.bump .NET_CNT_DROP).rdmaNakOnly q psn

/-- Serves the requests of a queue pair that wait, in packet order (R555). -/
def Dev.rdmaServe (d : Dev) (q : Nat) : Nat → Dev
  | 0 => d
  | fuel + 1 =>
    match d.ops.find? (fun e => e.2.opcode == rdmaOp && e.2.acc == q) with
    | none => d
    | some (id, o) =>
      let go : Bool := match o.phase with | .blocked b => d.cleared o.chamber o.ans b | _ => true
      if !go then d
      else
        let write := o.acc3 == 1
        let va := o.f 0 8
        let len := o.f 8 8
        let (res, es) := runEng (.op id) (eRdma { opWho id o with rq := 99 } va len (o.body.drop 16) write) d o.ans [] o.back
        match res with
        | .error (.block b start) => start (d.setOp id { o with phase := .blocked b })
        | .error (.fail st) =>
          let d := { es.d with ops := kdel es.d.ops id }
          /- a poisoned READ is no request that R555 refuses -/
          Dev.rdmaServe (if st = 0x30 then d.rdmaNakOnly q o.acc2 else d.rdmaNak q o.acc2) q fuel
        | .ok data =>
          let d := { es.d with ops := kdel es.d.ops id }
          Dev.rdmaServe (d.qpTx q (.rdma q (if write then 0x11 else 0x10) o.acc2 data)) q fuel

/-- An RDMA READ or WRITE arrives on queue pair `q`: in its sequence it is admitted or refused; out of it, a gap is reported once, and
a duplicate READ is served again and a duplicate WRITE acknowledged (R551, R555, log 43). -/
def Dev.rdmaArrives (d : Dev) (q psn va rkey len : Nat) (data : Bytes) (write : Bool) : Dev :=
  let s := d.qp q
  let c := d.rf .NET_ADDR_CFG_CHAMBER (d.rf .NET_QP_ADDR q)
  let takeIn (d : Dev) : Dev :=
    if !d.rdmaNamed c va rkey len write then d.rdmaNak q psn
    else if (d.rdmaBad c va len write).isSome then (d.rdmaCheck c va len write).rdmaNak q psn
    else
      let o : Op :=
        { chamber := c, ring := 0, idx := 0, nslots := 1, opcode := rdmaOp, tag := 0, sig := false, fence := false, nfz := false, tc := 3,
          body := leBytes 8 va ++ leBytes 8 len ++ data, phase := .ready, admitted := d.gt, part := 0, lines := 0, nfzLines := 0,
          poison := false, fallback := false, unstaged := false, applied := false, ans := [],
          reply := some (0, homeMsg 0 0 0), portal := none, acc := q, acc2 := psn, acc3 := b2n write, seen := [] }
      { d with ops := kput d.ops d.nextOp o, nextOp := d.nextOp + 1 }
  let n := d.packets q len
  let d :=
    if psn = s.rxPsn then
      takeIn { d with qps := kput d.qps q { s with rxPsn := (s.rxPsn + n) % 2 ^ 24, nakked := false } }
    else if serialAfter 24 psn s.rxPsn then
      if s.nakked then d
      else { d with qps := kput d.qps q { s with nakked := true } }.qpTx q (.rdma q 0x11 s.rxPsn [0x60])
    else if write then d.qpTx q (.rdma q 0x11 psn [])
    else if d.ops.any (fun e => e.2.opcode == rdmaOp && e.2.acc == q && e.2.acc2 == psn) then d
    else takeIn d
  d.rdmaServe q (d.ops.length + 1)

/-- RDMA READ arrives (R555). -/
def Dev.rdmaRead (d : Dev) (port : Nat) (f : EthFrame) : Dev :=
  match f.body with
  | .roce _ _ (.read va rkey len) =>
    d.withRoce port f (fun q psn _ d => d.rdmaArrives q psn va.toNat rkey.toNat len.toNat [] false)
  | _ => d

/-- RDMA WRITE arrives (R555). -/
def Dev.rdmaWrite (d : Dev) (port : Nat) (f : EthFrame) : Dev :=
  match f.body with
  | .roce _ _ (.write va rkey data) =>
    d.withRoce port f (fun q psn _ d => d.rdmaArrives q psn va.toNat rkey.toNat data.length data true)
  | _ => d

/-! ### Gateway windows (R556-R560) -/

/-- The data of a granule arrives: the lines of flushes and gathers are laid over it, and what waits is served; a granule that a Sweep
or WINVAL met is then not kept (R556, R557, R561). -/
def Dev.granArrives (d : Dev) (pg : Nat) (data : Bytes) : Dev :=
  match kget d.grans pg with
  | none => d
  | some g =>
    if !g.fetching then d
    else
      let c := g.chamber
      let l0 := d.granLine c g.frame
      let line (i : Nat) : Bytes := d.gathered c g.win (pg * 1024 + i) (padTo 64 (data.drop (64 * i)))
      let d := d.wrMem (l0 * 64) ((List.range 1024).map line).flatten
      let d := (List.range 1024).foldl (fun d i => d.unpoison (l0 + i)) d
      let d := { d with wins := kmod d.wins (c * 64 + g.win) (fun s => { s with after := s.after.filter (fun e => e.1 / 1024 != pg) }) }
      let d := d.tick
      let d := { d with grans := kput d.grans pg { g with fetching := false, used := d.coh.clock } }
      let d := d.slotsGo
      if g.keep then d
      else
        let all : List Ans := (List.range 1024).map (fun i =>
          { line := d.devnum * 2 ^ 42 + pg * 1024 + i, write := false, status := 0, data := d.rdMem ((l0 + i) * 64) 64,
            poison := false, wprot := false })
        let d := d.granAnswer c g.win pg all
        { d with grans := kdel d.grans pg }

/-- The data of a window's READ arrives (R556); it acknowledges the WRITEs sent before it. -/
def Dev.rdmaReadResponse (d : Dev) (port : Nat) (f : EthFrame) : Dev :=
  match f.body with
  | .roce _ _ (.readResponse data) =>
    d.withRoce port f (fun q psn _ d =>
      match (d.qp q).sent.find? (fun r => r.kind == 0 && r.psn == psn) with
      | none => d
      | some r =>
        let d := d.qpAcked q ((psn + 2 ^ 24 - 1) % 2 ^ 24)
        { d with qps := kmod d.qps q (fun s => { s with sent := s.sent.erase r }) }.granArrives r.what data)
  | _ => d

/-- Granules that a window's gathered writes touch. -/
def Dev.gatherPages (d : Dev) (key : Nat) : List Nat :=
  match kget d.wins key with
  | some g => ((g.gather ++ g.flushing).map (fun e => e.1 / 1024)).dedup
  | none => []

/-- WFLUSH (R560): the windows of the mask are flushed, and it completes when they are. -/
def Dev.wflush (d : Dev) (id : Nat) : Dev :=
  d.runOp id 0x58 (fun o d =>
    if o.nslots ≠ 1 ∨ !o.zero 24 40 then d.endOp id 0x7F 0 0
    else
      let keys := ((List.range 64).filter (fun w => bit (o.f 16 8) w)).map (fun w => o.chamber * 64 + w)
      let o := if o.part = 0 then { o with part := 1, acc := (keys.map (fun k => (d.gatherPages k).length)).sum } else o
      let d := d.setOp id o
      let d := keys.foldl (fun d k => d.flushWin o.chamber (k % 64)) d
      if keys.any (fun k => !(d.gatherPages k).isEmpty) then d else d.endOp id 0 o.acc 0)

/-- A cached granule dropped; one being fetched serves what waits and is not kept (R559, R561). -/
def Dev.dropGran (d : Dev) (pg : Nat) : Dev :=
  match kget d.grans pg with
  | some g => { d with grans := if g.fetching then kput d.grans pg { g with keep := false } else kdel d.grans pg }
  | none => d

/-- The pages of a CVA range (R560); unmapped ones are skipped under NFZ. -/
def ePages (w : Who) (cva n : Nat) : Eng (List Nat) := do
  let ps ← (units 65536 cva n).mapM (fun p => do
    match (← eXlate w (p * 65536) false) with
    | some x => return (match (← eGet).localLine x.pa with | some (l, _) => [l / 1024] | none => [])
    | none => return [])
  return ps.flatten

/-- WINVAL (R560). -/
def Dev.winval (d : Dev) (id : Nat) : Dev :=
  d.runOp id 0x59 (fun o d =>
    let ranged := bit (o.f 24 1) 0
    if o.nslots ≠ 1 ∨ 2 ≤ o.f 24 1 ∨ !o.zero 25 7 ∨ !o.zero 48 16 ∨ (ranged = true ∧ 2 ^ 52 < o.f 32 8 + o.f 40 8) then
      d.endOp id 0x7F 0 0
    else
      d.turn id o (if ranged then ePages (opWho id o) (o.f 32 8) (o.f 40 8) else pure []) (fun ps o d =>
        let hit := (d.grans.filter (fun e => e.2.chamber == o.chamber && bit (o.f 16 8) e.2.win &&
          (!ranged || ps.contains e.1))).map Prod.fst
        (hit.foldl (fun d p => d.dropGran p) d).finishOp id o { count := hit.length }))

/-! ### PTP (R552) -/

/-- The logical port, domain and transport that PTP uses name a message (R552, R576). -/
def Dev.ptpMine (d : Dev) (port : Nat) (f : EthFrame) : Bool :=
  d.rb .NET_PTP_CFG_EN && d.rf .NET_PTP_CFG_PORT == port &&
    (match f.body, d.rf .NET_PTP_CFG_TRANSPORT with
     | .ptp _, 0 => true
     | .udp _ dp _, 1 => !f.v6 && (dp == 319#16 || dp == 320#16)
     | .udp _ dp _, 2 => f.v6 && (dp == 319#16 || dp == 320#16)
     | _, _ => false)

/-- DOMAIN of a PTP message: byte 4 of its header. -/
def ptpDomain (f : EthFrame) : Nat :=
  match f.body with
  | .ptp b => field b 4 1
  | .udp _ _ b => field b 4 1
  | _ => 0

/-- A PTP event message: firmware disciplines the rate of GT within MAXSLEW and steps the offset; the servo itself is open, so rate,
offset and lock are free (R552, log 44). -/
def Dev.ptpEvent (d : Dev) (port : Nat) (f : EthFrame) : Dev :=
  match f.body with
  | .ptp _ | .udp _ _ _ =>
    if !frameOwn f then d
    else d.withFrame port f (fun _ d =>
      if !(d.ptpMine port f && ptpDomain f == d.rf .NET_PTP_CFG_DOMAIN) then d
      else
        let m := d.rf .NET_PTP_CFG_MAXSLEW
        let n := d.fresh
        let d := { d.drawn with net.slew := (Config.free2 n 0 % (2 * m + 1) : Nat) - (m : Int) }
        (d.wf .NET_PTP_OFS_OFS 0 (Config.free2 n 1)).wb .NET_PTP_CFG_LOCKED 0 (Config.free2 n 2 % 2 == 1))
  | _ => d

/-- The servo loses lock: GT runs on with no discipline (R552). -/
def Dev.ptpLoss (d : Dev) : Dev := { d.wb .NET_PTP_CFG_LOCKED 0 false with net.slew := 0 }

end Sys2Proof.Machine
end

