-- ==== Sys2Proof/Machine/Portal.lean ====
section
/-!
DEFINITION. The Portal protocol: requests of network clients, answered by the service cores (14 R562-R569).
-/

namespace Sys2Proof.Machine

/-- Bytes of a UDP datagram's frame with `n` bytes of data: Ethernet header and FCS, one tag, IP and UDP headers (log 45). -/
def udpFrameLen (tags : Nat) (v6 : Bool) (n : Nat) : Nat := 14 + 4 * tags + (if v6 then 40 else 20) + 8 + n + 4

/-- The data of a datagram, and its source port. -/
def udpData (f : EthFrame) : Bytes := match f.body with | .udp _ _ b => b | _ => []
def udpSport (f : EthFrame) : Nat := match f.body with | .udp s _ _ => s.toNat | _ => 0

/-- A reply datagram to a request's source, with the DSCP of the request (R549, R566). -/
def Dev.portalSend (d : Dev) (port : Nat) (f : EthFrame) (b : Bytes) : Dev :=
  d.netTx port (d.framePrio f) (.eth port
    { f with src := f.dst, dst := f.src, ecn := 0, len := udpFrameLen f.tags f.v6 b.length,
             body := .udp (BitVec.ofNat 16 (d.rf .NET_PTL_DEV_PORT)) (BitVec.ofNat 16 (udpSport f)) b })

/-- The head of a v2 reply (R565). -/
def v2Head (flags outBytes reqid : Nat) : Bytes := [0xA7, 0x02] ++ leBytes 1 flags ++ [0] ++ leBytes 4 outBytes ++ leBytes 8 reqid

/-- A v2 reply that the service cores build themselves (R567). -/
def Dev.portalFail (d : Dev) (port : Nat) (f : EthFrame) (c status : Nat) : Dev :=
  let b := udpData f
  let r : CRec :=
    { status := status, opcode := field b 48 1, applied := false, fallback := false, poison := false, tag := field b 56 8, count := 0,
      result := 0, sig := false }
  d.portalSend port f (v2Head 0 0 (field b 8 8) ++ recBytes r false (d.rf .NET_PTL_CFG_RING c) d.stamp)

/-- A v1 reply: the header again with STATUS and COUNT, and the rows (R569). -/
def Dev.v1Reply (d : Dev) (port : Nat) (f : EthFrame) (status count : Nat) (rows : Bytes) : Dev :=
  let b := udpData f
  d.portalSend port f (b.take 3 ++ leBytes 1 status ++ (b.drop 4).take 8 ++ leBytes 4 (min count (2 ^ 32 - 1)) ++ rows)

/-- Pointer fields of an image: their offsets, and the bytes that the descriptor says lie there (R564). -/
def imagePtrs (b : Bytes) : Option (List (Nat × Nat)) :=
  match field b 0 1 with
  | 0x20 => some [(24, 4 * field b 32 4), (40, 1)]
  | 0x21 => some ([(24, 8 * field b 32 4), (40, 4 * (field b 36 4 + 1)), (56, 1)] ++
              (if field b 1 1 % 4 = 1 then [(64, 4 * field b 32 4)] else []))
  | 0x23 => some [(40, 8 * field b 48 2)]
  | 0x31 => some [(40, 1)]
  | 0x33 => some ([(40, 1), (48, 1)] ++ (if field b 1 1 % 4 = 1 then [(64, field b 72 8)] else []))
  | 0x34 => some [(48, field b 56 8)]
  | 0x40 => some [(24, 1), (32, 16 * field b 40 2)]
  | _ => none

/-- A pointer field rewritten to a CVA of the Portal area, none where it leaves its area (R564). -/
def rewritePtr (inAt inBytes outAt outBytes n v : Nat) : Option Nat :=
  if v < 2 ^ 63 then some v
  else if bit v 62 then (if v % 2 ^ 30 + n ≤ outBytes then some (outAt + v % 2 ^ 30) else none)
  else if v % 2 ^ 24 + n ≤ inBytes then some (inAt + v % 2 ^ 24)
  else none

/-- The image with its pointers rewritten (R564). -/
def rewriteImage (inAt inBytes outAt outBytes : Nat) (b : Bytes) : Option Bytes :=
  (imagePtrs b).bind (fun ps => ps.foldl (fun (b : Option Bytes) p => b.bind (fun b =>
    (rewritePtr inAt inBytes outAt outBytes (max 1 p.2) (field b p.1 8)).map (fun v => putBytes b p.1 (leBytes 8 v)))) (some b))

/-- CVA at which a Chamber's Portal area begins (log 41). -/
def portalBase (c : Nat) : Nat := Config.portalPage c % 2 ^ 36 * 65536

/-- Requests of a Chamber in flight. -/
def Dev.portalOf (d : Dev) (c : Nat) : List PReq := (d.net.reqs.filter (fun e => e.2.chamber == c)).map Prod.snd

/-- `n` rounded up to whole lines. -/
def lineUp (n : Nat) : Nat := (n + 63) / 64 * 64

/-- The lowest free place of `n` bytes in a Chamber's Portal area (log 46). -/
def Dev.portalRoom (d : Dev) (c n : Nat) : Option Nat :=
  let used := (d.portalOf c).map (fun p => (p.off, lineUp p.inBytes + lineUp p.outBytes))
  let fits (a : Nat) : Bool := decide (a + n ≤ d.rf .NET_PTL_CFG_COUNT c * 2 ^ 28) &&
    used.all (fun u => decide (a + n ≤ u.1 ∨ u.1 + u.2 ≤ a))
  (((0 :: used.map (fun u => u.1 + u.2)).filter fits).foldl (fun (m : Option Nat) a =>
    match m with | none => some a | some x => some (min x a)) none)

/-- Local offset of a place in a Chamber's Portal area. -/
def Dev.portalAt (d : Dev) (c off : Nat) : Nat := d.rf .NET_PTL_CFG_FIRST c * 2 ^ 28 + off

/-- The Portal as a requester (08 R317). -/
def portalWho (c key : Nat) : Who := { chamber := c, rq := 99, mt := none, nfz := false, why := .portal key }

/-- PA of a place in a Chamber's Portal area. -/
def Dev.portalPa (d : Dev) (c off : Nat) : Nat := d.devnum * 2 ^ 48 + d.portalAt c off

/-- Bytes of the Portal area as they are sent: poisoned lines as zeros; and whether one was poisoned (16 R625). -/
def ePortalOut (w : Who) (at_ n : Nat) : Eng (Bytes × Bool) := do
  let ls ← ePaLines w at_ n
  return (((ls.map (fun l => if l.2.2 then zeros 64 else l.2.1)).flatten).take n, ls.any (fun l => l.2.2))

/-- A request's data copied into the area and its output zeroed (R566), then the post of its descriptor, with NOPs where it would
pass the end of the ring (06 R224). -/
def ePost (w : Who) (p : PReq) (base k tail pad : Nat) : Eng Unit := do
  let d ← eGet
  ePaPut w (d.portalPa p.chamber p.off) (padTo (lineUp p.inBytes) p.data)
  ePaPut w (d.portalPa p.chamber p.outOff) (zeros (lineUp p.outBytes))
  let nop : Bytes := [0, 0, 3] ++ zeros 61
  for i in List.range pad do
    eWrite w (base + (tail + i) % 2 ^ k * 64) nop
  eWrite w (base + (tail + pad) % 2 ^ k * 64) p.image

/-- The reply of a completed request; it leaves the area and, for v2, enters the reply cache (R565, R566, R568, R569). -/
def Dev.portalAnswer (d : Dev) (key : Nat) (p : PReq) (r : CRec) (rec_ : Bytes) : Dev :=
  let ok : Bool := decide (r.status < 0x20)
  let (out, poisoned) := if ok then p.out else ([], false)
  let rec_ := if poisoned then putBytes rec_ 2 (leBytes 1 (field rec_ 2 1 ||| 8)) else rec_
  let d := { d with net.reqs := kdel d.net.reqs key, portalDone := kdel d.portalDone key }
  if p.v1 then
    let pitch := lineUp (4 * p.row)
    let rows := if ok then ((List.range (p.outBytes / max 1 pitch)).map (fun i => (out.drop (i * pitch)).take (4 * p.row))).flatten else []
    d.v1Reply p.port p.frame r.status r.count rows
  else
    let inline := if ok && p.bulk.isNone then out else []
    let flags := 2 * b2n p.bulk.isSome + 4 * b2n p.bulkFail
    let e : PDone := { src := p.frame.src.toNat, sport := udpSport p.frame, reqid := p.reqid, answer := rec_ }
    { d with net.cache := d.net.cache ++ [e] }.portalSend p.port p.frame (v2Head flags inline.length p.reqid ++ rec_ ++ inline)

/-- The ring has room for a request's NOPs and descriptor (06 R236, R237). -/
def Dev.ringRoom (d : Dev) (i n : Nat) : Bool :=
  decide (subMod 32 ((d.ring i).tail + n) (d.rf .CHM_RING_STS_HEAD i) ≤ 2 ^ d.rf .CHM_RING_CFG_SIZE_LOG2 i)

/-- A Portal request goes on: its descriptor is posted, its record taken, its bulk output written, its reply sent (R566). -/
def Dev.portalGo (d : Dev) (key : Nat) : Dev :=
  match kget d.net.reqs key with
  | none => d
  | some p =>
    let c := p.chamber
    let r := d.rf .NET_PTL_CFG_RING c
    let i := ringIx c r
    let set (d : Dev) (p : PReq) : Dev := { d with net.reqs := kput d.net.reqs key { p with blk := none } }
    let block (b : Blk) (start : Dev → Dev) : Dev := start { d with net.reqs := kput d.net.reqs key { p with blk := some b } }
    if (match p.blk with | some b => !d.cleared c p.ans b | none => false) then d
    else match p.stage with
    | 0 =>
      let k := d.rf .CHM_RING_CFG_SIZE_LOG2 i
      let tail := (d.ring i).tail
      let n := p.image.length / 64
      let pad := if 2 ^ k < tail % 2 ^ k + n then 2 ^ k - tail % 2 ^ k else 0
      if d.rf .CHM_RING_STS_STATE i ≠ 1 ∨ d.ringRoom i (pad + n) = false then d
      else
        let (res, es) := runEng (.portal key) (ePost (portalWho c key) p (d.rf .CHM_RING_BASE_BASE i * 4096) k tail pad) d p.ans [] p.blk
        match res with
        | .error (.block b start) => block b start
        | .error (.fail st) =>
          if p.v1 then (set es.d p).portalAnswer key p
            { status := st, opcode := 0, applied := false, fallback := false, poison := false, tag := 0, count := 0, result := 0, sig := false } []
          else { es.d with net.reqs := kdel es.d.net.reqs key }.portalFail p.port p.frame c st
        | .ok _ => (set es.d { p with stage := 1, idx := u32 (tail + pad), pad := pad, ans := [], data := [] }).doorbell c r (u32 (tail + pad + n))
    | 1 =>
      match kget d.portalDone key with
      | none => d
      | some (x, b) =>
        let (res, es) := runEng (.portal key)
          (if x.status < 0x20 then ePortalOut (portalWho c key) (d.portalPa c p.outOff) p.outBytes else pure ([], false)) d p.ans [] p.blk
        match res with
        | .error (.block b start) => block b start
        | .error (.fail st) => (es.d.inc .CHM_RING_CHD_CHEAD i (1 + p.pad)).portalAnswer key p { x with status := st } (putBytes b 0 (leBytes 1 st))
        | .ok out =>
          let d := es.d.inc .CHM_RING_CHD_CHEAD i (1 + p.pad)
          let p := { p with answer := some (x, b), out := out, ans := [] }
          match p.bulk with
          | some (qp, rkey, va) =>
            if x.status < 0x20 ∧ 0 < p.outBytes then
              let b := if out.2 then putBytes b 2 (leBytes 1 (field b 2 1 ||| 8)) else b
              if d.rf .NET_QP_STATE qp = 1 then
                (set d { p with stage := 2, answer := some (x, b) }).qpSend qp 2 0x0A key p.outBytes (reth va rkey p.outBytes ++ out.1)
              else (set d { p with bulkFail := true }).portalAnswer key { p with bulkFail := true } x b
            else d.portalAnswer key p x b
          | none => d.portalAnswer key p x b
    | 3 => match p.answer with | some (x, b) => d.portalAnswer key p x b | none => d
    | _ => d

/-- A request is admitted (R566). One of v2 takes an entry of the reply cache, when that is full the completed one replied longest ago
(R568). -/
def Dev.portalAdmit (d : Dev) (p : PReq) : Dev :=
  let key := d.net.nextReq
  let busy := (d.net.reqs.filter (fun (x : Nat × PReq) => !x.2.v1)).length
  let d := if !p.v1 && decide (8192 ≤ d.net.cache.length + busy) then { d with net.cache := d.net.cache.drop 1 } else d
  { d with net.reqs := kput d.net.reqs key p, net.nextReq := key + 1 }.portalGo key

/-- A datagram for a Portal taken from its port: the NET_ADDR entry and Chamber; one that R562 refuses, or whose Chamber accepts none,
is dropped (R562, R574). -/
def Dev.withPortal (d : Dev) (version header port : Nat) (f : EthFrame) (k : Nat → Nat → Nat → Dev → Dev) : Dev :=
  match f.body with
  | .udp _ dport b =>
    if dport.toNat ≠ d.rf .NET_PTL_DEV_PORT ∨ frameOwn f = true ∨
        (field b 0 1 = 0xA7 ∧ field b 1 1 % 16 ≠ version ∧ (field b 1 1 % 16 = 1 ∨ field b 1 1 % 16 = 2)) then d
    else d.withFrame port f (fun r d =>
      match d.addrEntry f with
      | none => d
      | some e =>
        if b.length < header ∨ field b 0 1 ≠ 0xA7 ∨ field b 1 1 % 16 ≠ version ∨ d.rb .NET_PTL_CFG_EN r.tag = false then d.bump .NET_CNT_DROP
        else k e r.tag r.tc d)
  | _ => d

/-- A Portal v2 request (R563, R564, R566, R567). -/
def Dev.portalV2 (d : Dev) (port : Nat) (f : EthFrame) : Dev :=
  d.withPortal 2 48 port f (fun e c _ d =>
    let b := udpData f
    let reqid := field b 8 8
    let bulk := bit (field b 2 1) 0
    let outBytes := field b 16 4
    let qp := field b 20 2
    let n := 64 * (1 + field b 49 1 % 4)
    let data := b.drop (48 + n)
    let same (x : PReq) : Bool := !x.v1 && x.frame.src == f.src && udpSport x.frame == udpSport f && x.reqid == reqid
    if field b 4 4 ≠ d.rf .NET_ADDR_CFG_PKEY e then d.bump .NET_CNT_DROP
    else match d.net.cache.find? (fun x => x.src == f.src.toNat && x.sport == udpSport f && x.reqid == reqid) with
    | some x => d.portalSend port f (v2Head 1 0 reqid ++ x.answer)
    | none =>
      if d.net.reqs.any (fun x => same x.2) then d
      else if d.rf .NET_PTL_CFG_MAXOPS c ≤ (d.portalOf c).length then d.bump .NET_CNT_PTL_BUSY
      else if d.chmState c ≠ 1 then d.portalFail port f c 0x21
      else
        let tooLarge : Bool := !bulk && decide (d.rf .NET_EP_CFG_MAXFRAME (port / 2) < udpFrameLen f.tags f.v6 (48 + outBytes))
        let badQp : Bool := bulk && (decide (4096 ≤ qp) || d.rf .NET_QP_ADDR qp != e)
        let need := lineUp data.length + lineUp outBytes
        let image (at_ : Nat) : Option Bytes :=
          if b.length < 48 + n then none
          else rewriteImage (portalBase c + at_) data.length (portalBase c + at_ + lineUp data.length) outBytes ((b.drop 48).take n)
        if tooLarge || badQp || decide (2 ^ 30 < outBytes) || (image 0).isNone then d.portalFail port f c 0x7F
        else match d.portalRoom c need with
          | none => d.portalFail port f c 0x42
          | some at_ =>
            d.portalAdmit
              { port := port, frame := f, v1 := false, chamber := c, reqid := reqid, off := at_, inBytes := data.length,
                outOff := at_ + lineUp data.length, outBytes := outBytes, image := (image at_).getD [], pad := 0, stage := 0, idx := 0,
                row := 0, ans := [], answer := none, bulk := if bulk then some (qp, field b 24 4, field b 32 8) else none,
                bulkFail := false, data := data, out := ([], false) })

/-- Elements of a row of the table that a v1 request names, when it is ACTIVE (R569, 12 R469). -/
def eV1Elems (w : Who) (ks : Nat) : Eng (Option Nat) := do
  match (← eFind w (ks + (← eGet).devnum * 0x10000) false) with
  | .error _ => return none
  | .ok x =>
    if ((← eGet).localLine x.pa).isNone then return none
    let k ← eKs w x.pa
    return if k.active then some k.elems else none

/-- A v1 request whose rows have `e` elements is admitted as a LOOKUP2 (R569). -/
def Dev.v1Admit (d : Dev) (c port : Nat) (f : EthFrame) (ks e : Nat) : Dev :=
  let b := udpData f
  let bag := field b 10 2
  let nidx := field b 12 4
  let bad (st : Nat) : Dev := d.v1Reply port f st 0 []
  let bags := nidx / bag
  let out := bags * lineUp (4 * e)
  let data := (b.drop 16).take (4 * nidx)
  if d.rf .NET_EP_CFG_MAXFRAME (port / 2) < udpFrameLen f.tags f.v6 (16 + bags * 4 * e) then bad 0x7F
  else match d.portalRoom c (lineUp data.length + out) with
    | none => bad 0x42
    | some at_ =>
      let base := portalBase c + at_
      let image := [0x20, 0, 3] ++ zeros 5 ++ leBytes 8 (field b 4 4) ++ leBytes 8 ks ++ leBytes 8 base ++ leBytes 4 nidx ++
        leBytes 2 bag ++ leBytes 1 (field b 3 1 % 2) ++ [0] ++ leBytes 8 (base + lineUp data.length) ++ zeros 16
      d.portalAdmit
        { port := port, frame := f, v1 := true, chamber := c, reqid := field b 4 4, off := at_, inBytes := data.length,
          outOff := at_ + lineUp data.length, outBytes := out, image := image, pad := 0, stage := 0, idx := 0, row := e, ans := [],
          answer := none, bulk := none, bulkFail := false, data := data, out := ([], false) }

/-- A v1 request of a Chamber (R569): its checks, and the table that it names. -/
def Dev.v1Go (d : Dev) (at_ : SvcAt) (c port : Nat) (f : EthFrame) : Dev :=
  let b := udpData f
  let table := field b 8 2
  let bag := field b 10 2
  let nidx := field b 12 4
  let t := c * 16 + table
  let ks := d.rf .NET_V1_TBL_TABLE t * 2 ^ 24
  let bad (st : Nat) (d : Dev) : Dev := d.v1Reply port f st 0 []
  if d.rf .NET_PTL_CFG_MAXOPS c ≤ (d.portalOf c).length then d.bump .NET_CNT_PTL_BUSY
  else if d.chmState c ≠ 1 then bad 0x21 d
  else if field b 2 1 ≠ 1 ∨ 15 < table ∨ bag = 0 ∨ nidx % bag ≠ 0 ∨ b.length < 16 + 4 * nidx ∨ d.rb .NET_V1_TBL_EN t = false then bad 0x7F d
  else d.svc at_ (.v1 c port f) c (fun w => do
    match (← eTry (eV1Elems { w with rq := 99 } ks)) with
    | .error st => return bad st
    | .ok none => return bad 0x7F
    | .ok (some e) => return fun d => d.v1Admit c port f ks e)

/-- A Portal v1 request: a LOOKUP2 (R569). -/
def Dev.portalV1 (d : Dev) (port : Nat) (f : EthFrame) : Dev :=
  d.withPortal 1 16 port f (fun _ c _ d => d.v1Go none c port f)

/-- The service cores go on with a Portal request: a record has come, or its bulk output has been written (R566). -/
def Dev.portalReply (d : Dev) (key : Nat) : Dev := d.portalGo key

/-- A reply-cache entry passes DEDUP (R568). -/
def Dev.cacheExpire (d : Dev) (src sport reqid : Nat) : Dev :=
  { d with net.cache := d.net.cache.filter (fun x => !(x.src == src && x.sport == sport && x.reqid == reqid)) }

end Sys2Proof.Machine
end

