-- ==== Sys2Proof/Machine/ChamberCtl.lean ====
section
/-!
DEFINITION. Enabling, disabling and resetting a Chamber, the drain, and the operation watchdog (06 R243-R254, 09 R385, 10 R411,
13 R524, 14 R561).
-/

namespace Sys2Proof.Machine

/-! ### Operations that stop -/

/-- The requests of a stopping operation: its reads are no longer waited for; its writes are (R246). -/
def Dev.stopReqs (d : Dev) (id : Nat) : Dev :=
  let masons := match kget d.runs id with | some r => r.masons | none => []
  let mine (w : ReqFor) : Bool := match w with
    | .op i => i == id
    | .mason k => masons.contains (k / 4)
    | _ => false
  { d with coh.reqs := d.coh.reqs.map (fun r =>
             if mine r.why then { r with why := if isWrite r.msg.opc then .op id else .none } else r),
           coh.txns := d.coh.txns.filter (fun e => match e.2.why with | .lock w => !mine w | _ => true) }

/-- What an operation leaves in the units of its chapter when it stops. A publish or move that it started goes on, with no record
(12 R484, R508). -/
def Dev.opForget (d : Dev) (id : Nat) : Dev :=
  let d := ((d.hoardForget id).tblForget id).galForget id
  { d with tier.waiting := d.tier.waiting.filter (fun x => x != id), tier.scheds := kdel d.tier.scheds id,
           err.scrubs := kdel d.err.scrubs id, flowIn := kdel d.flowIn id,
           tbl.pubs := d.tbl.pubs.map (fun e => (e.1, { e.2 with op := if e.2.op = some id then none else e.2.op })),
           tbl.moves := d.tbl.moves.map (fun e => (e.1, { e.2 with op := if e.2.op = some id then none else e.2.op })),
           tbl.repls := d.tbl.repls.filter (fun e => e.2.op != id) }

/-- A Mason drops the pool bricks that its units have not performed, since a stopped operation issues no further access (R246); its other
bricks run on (09 R381, log 151). -/
def Dev.dropBricks (d : Dev) (k : Nat) : Dev :=
  let m := d.mason k
  d.setMason k { m with queues := m.queues.map (fun e => (e.1, e.2.filter (fun q => q.done || !q.pool))) }

/-- Where a run stands that a disable or CHM_OP_TMO stops: the brick that its first Mason reached, and that Mason (09 R354, log 151). -/
def Dev.runAt (d : Dev) (r : Run) : Nat × Nat :=
  match r.masons with
  | k :: _ => (d.rf .MSN_STS_BRICK k, (d.mason k).logical)
  | [] => (noStop, 0)

/-- An operation stops and completes with a status, with COUNT as R231 fixes (R243, R246). A run completes once its Masons have
stopped; a settle is rolled back (07 R285); a sub-batch or part of another device's operation is given up, which that device is told. -/
def Dev.stopOp (d : Dev) (id status : Nat) : Dev :=
  match kget d.ops id with
  | none => d
  | some o =>
    match o.phase with
    | .ending _ => d.writeRecord id
    | _ =>
      if o.unfetched then d.dropFetch id o else
      let d := d.stopReqs id
      match d.tier.settles.find? (fun e => e.2.op == some id) with
      | some (slot, _) => d.settleBack slot status
      | none =>
        match kget d.runs id with
        | some r =>
          if r.started then
            let d := { d with runs := kput d.runs id { r with fetched := true } }
            let x := d.runAt r
            (r.masons.foldl (fun d k => if (d.mason k).run = some id then d.dropBricks k else d) d).stopRun id status x.1 x.2
          else ({ d with runs := kdel d.runs id }).endOp id status 0 noStop
        | none =>
          match o.reply with
          | some (p, q) =>
            if 0x100 ≤ o.opcode then
              match kget d.tbl.works id, kget d.gal.works id with
              | some t, _ => ((d.opForget id).freeOp id o).tblReply p q { t with status := status }
              | none, _ =>
                let e := (d.opForget id).freeOp id o
                /- a part of a SEARCH tells its origin (13 R535) -/
                if o.opcode = 0x140 then e.send (.msg p (grspMsg q (if status = 0x20 then 0x21 else status) 0 0 [])) else e
            else (d.opForget id).endOp id status o.lines (d.hoardRes id)
          | none => (d.opForget id).endOp id status o.lines (if o.opcode = 0x48 then noStop else d.hoardRes id)

/-- CHM_OP_TMO has passed since an operation was admitted (R246); a descriptor still being fetched has not been (log 136). -/
def Dev.opTimeout (d : Dev) (id : Nat) : Dev :=
  match kget d.ops id with
  | none => d
  | some o => if d.rf .CHM_OP_TMO_TMO o.chamber = 0 ∨ o.reply.isSome ∨ o.unfetched = true then d else d.stopOp id 0x50

/-! ### Disable -/

/-- Starts a disable (R243 step 1): intake stops, and the gathered writes of its windows are flushed (14 R561). -/
def Dev.disableStart (d : Dev) (c : Nat) (resetting chb : Bool) : Dev :=
  let d := (d.wf .CHM_CTL_ENABLE c 0).wf .CHM_STS_STATE c 2
  (d.setChmSt c { d.chmSt c with resetting := resetting, aborts := 0, chb := chb }).flushAll c

/-- CHM_CTL can act: the Bond defines the Chamber, and it is ENABLED or DISABLED (R245, R251). While a Chamber Bond waits for units to rise
(15 R595 step 4), it is refused (DESIGN CHOICE, log 163). -/
def Dev.ctlOk (d : Dev) (c : Nat) : Bool := d.chmDefined c && (d.chmState c == 1 || d.chmState c == 4) && !(d.chmSt c).chb

/-- CHM_CTL with ENABLE = 1 (R245, R251). -/
def Dev.chamberEnable (d : Dev) (c : Nat) : Dev :=
  if !d.ctlOk c then d.wb .CHM_STS_REFUSED c true
  else (d.wf .CHM_CTL_ENABLE c 1).wf .CHM_STS_STATE c 1

/-- CHM_CTL with ENABLE = 0 (R243, R245, R251). -/
def Dev.chamberDisable (d : Dev) (c : Nat) : Dev :=
  if !d.ctlOk c then d.wb .CHM_STS_REFUSED c true
  else if d.chmState c = 1 then d.disableStart c false false else d

/-- CHM_CTL with RESET = 1 (R247, R251). -/
def Dev.chamberReset (d : Dev) (c : Nat) : Dev :=
  if !d.ctlOk c then d.wb .CHM_STS_REFUSED c true
  else if d.chmState c = 1 then d.disableStart c true false
  else (d.wf .CHM_STS_STATE c 5).setChmSt c { d.chmSt c with resetting := true, aborts := 0, chb := false }

/-- A request that waits on a fault, a page or a gateway ends as aborted (R243 steps 3 and 4). -/
def Dev.abortWait (d : Dev) (e : Nat × Slot) : Dev :=
  match e.2.phase with
  | .fault _ | .stalled _ | .page _ | .gateway => d.abortSlot e.1 e.2
  | _ => d

/-- A Portal request is given up with a status before its descriptor is posted (14 R565, R569). -/
def Dev.portalStop (d : Dev) (key : Nat) (p : PReq) (st : Nat) : Dev :=
  if p.v1 then d.portalAnswer key p
    { status := st, opcode := 0, applied := false, fallback := false, poison := false, tag := 0, count := 0, result := 0, sig := false } []
  else { d with net.reqs := kdel d.net.reqs key }.portalFail p.port p.frame p.chamber st

/-- A disable discards the Chamber's fault records and ends the Portal requests that wait on them (R243, 08 R325). -/
def Dev.dropFaults (d : Dev) (c : Nat) : Dev :=
  let d := { d with xlt.recs := d.xlt.recs.filter (fun e => e.1 / 2 ^ 36 != c) }
  (d.net.reqs.filter (fun e => e.2.chamber == c && (match e.2.blk with | some (.fault _) | some (.stalled _) => true | _ => false))).foldl
    (fun d e => d.portalStop e.1 e.2 0x20) d

/-- CHM_DRAIN_TMO has passed since the disable was written (R243 steps 3 to 5, 14 R561). -/
def Dev.drainTimeout (d : Dev) (c : Nat) : Dev :=
  if d.chmState c ≠ 2 then d
  else
    let live := (d.opsOf c).filter (fun e => match e.2.phase with | .ending _ => false | _ => !e.2.unfetched)
    let n := (live.filter (fun e => decide (e.2.opcode < 0x100))).length
    let d := d.wf .CHM_STS_STATE c 3
    let d := d.dropFaults c
    let d := (d.coh.slots.filter (fun e => e.2.chamber == c)).foldl (fun d e => d.abortWait e) d
    let d := (d.dirtyWins c).foldl (fun d w => d.flushFail (c * 64 + w)) d
    let d := (d.dirtyWins c).foldl (fun d w => match kget d.wins (c * 64 + w) with
      | some g => d.unwritten (c * 64 + w) ((g.gather ++ g.after).map Prod.fst)
      | none => d) d
    let d := { d with wins := d.wins.map (fun (e : Nat × Win) => if e.1 / 64 == c then (e.1, { e.2 with gather := [], after := [] }) else e) }
    let d := d.setChmSt c { d.chmSt c with aborts := (d.chmSt c).aborts + n }
    ((d.opsOf c).foldl (fun d e => d.stopOp e.1 0x20) d).slotsGo

/-- Nothing of the Chamber is in progress: operations, runs, requests in the home tracker, gathered writes, work of the service cores. -/
def Dev.chamberIdle (d : Dev) (c : Nat) : Bool :=
  (d.opsOf c).isEmpty && !d.coh.slots.any (fun e => e.2.chamber == c) && (d.dirtyWins c).isEmpty && !d.svcs.any (fun e => e.2.chamber == c) &&
    !(List.range 144).any (fun k => (d.mason k).run.any (fun id => (kget d.ops id).any (fun o => o.chamber == c)))

/-- Every ring of a Chamber is STOPPED. -/
def Dev.stopRings (d : Dev) (c : Nat) : Dev :=
  (List.range 64).foldl (fun d r => (d.wf .CHM_RING_STS_STATE (ringIx c r) 0).wb .CHM_RING_CFG_EN (ringIx c r) false) d

/-- The last transaction of a disabling Chamber has finished (R243 step 6): it is DISABLED, or its reset's own actions begin (R248). -/
def Dev.disableDone (d : Dev) (c : Nat) : Dev :=
  let s := d.chmState c
  if (s ≠ 2 ∧ s ≠ 3) ∨ d.chamberIdle c = false then d
  else
    let st := d.chmSt c
    let d := ((d.dropFaults c).wf .CHM_STS_LAST_ABORTS c (min st.aborts 65535)).stopRings c
    d.wf .CHM_STS_STATE c (if st.resetting then 5 else 4)

/-! ### Chamber reset -/

/-- Semaphores of the slots that satisfy `p` are zeroed (09 R348). -/
def Dev.zeroSems (d : Dev) (p : Nat → Nat → Bool) : Dev :=
  (List.range 1024).foldl (fun d i => if p (i / 64) (i / 8 % 8) then d.wf .MSN_SEM_VALUE i 0 else d) d

/-- The own actions of a Chamber reset (R247, 08 R325, 09 R348, R385, 10 R411, 13 R524, 14 R559, R561). -/
def Dev.resetActions (d : Dev) (c : Nat) : Dev :=
  let d := d.stopRings c
  let d := (List.range 64).foldl (fun d r =>
    let i := ringIx c r
    let d := ((d.wf .CHM_RING_STS_HEAD i 0).wf .CHM_RING_STS_INFLIGHT i 0).wf .CHM_RING_CHD_CHEAD i 0
    { d with rings := kdel d.rings i }) d
  let d := d.dropXlt c 0 0 true
  let d := (d.logicalMasons c).foldl (fun d k =>
    let d := d.masonReset k
    if d.masonState k = 4 then d else d.wf .MSN_STS_STATE k 1) d
  let d := d.zeroSems (fun co g => d.slotOwner co g == some c)
  let d := (((d.zeroRange none c (d.rf .XLT_FQ_BASE_OFFSET c * 2 ^ 17) 131072).wf .XLT_FQ_PTR_TAIL c 0).wf .XLT_FQ_PTR_HEAD c 0)
  let d := (d.wf .XLT_FQ_SEQ_DELIVERED c 0).wf .XLT_FQ_SEQ_RESUMED c 0
  let d := (d.dropTables c).galCacheClr c
  let mine (k : Nat) : Bool := k % 32 == c
  { d with xlt.recs := d.xlt.recs.filter (fun e => e.1 / 2 ^ 36 != c),
           grans := d.grans.filter (fun e => e.2.chamber != c), wins := d.wins.filter (fun e => e.1 / 64 != c),
           hub.chamberTurn := d.hub.chamberTurn.filter (fun e => !mine e.1) }

/-- The own actions of a Chamber reset are done (R248). -/
def Dev.resetDone (d : Dev) (c : Nat) : Dev :=
  if d.chmState c ≠ 5 then d
  else ((d.resetActions c).wf .CHM_STS_STATE c 4).setChmSt c { d.chmSt c with resetting := false, aborts := 0, chb := false }

end Sys2Proof.Machine
end

