-- ==== Sys2Proof/Machine/Tally.lean ====
section
/-!
DEFINITION. Tally: the views of the members, the score, its exchange, and decisions (17 R651-R664, R677, R682).
-/

namespace Sys2Proof.Machine

/-! ### Members and views -/

/-- The device is a member of the composition domain (R651). -/
def Dev.member (d : Dev) (n : Nat) : Bool := bit (d.rf .TLY_PEERS_MEMBERS) n

/-- The members other than this device. -/
def Dev.peers (d : Dev) : List Nat := (List.range 256).filter (fun n => n != d.devnum && d.member n)

/-- This device's view of a member, its own state for itself: 0 ABSENT, 1 MEMBER, 2 PROBATION, 3 EXPELLED (R651, R682). -/
def Dev.view (d : Dev) (n : Nat) : Nat := if n = d.devnum then d.rf .TLY_STS_SELF else d.rf .TLY_DEV_STATE n

/-- MEMBER or PROBATION. -/
def Dev.inService (d : Dev) (n : Nat) : Bool := d.view n == 1 || d.view n == 2

/-- A BMIR ends with no Ack: the pair is BROKEN, and the write that waits for it is answered (R667). -/
def Dev.bmirLost (d : Dev) (b : Bmir) : Dev :=
  (({ d with coh.bmirs := d.coh.bmirs.erase b }.pairBroken b.entry).mirrored b.why).slotsGo

/-- BMIRs that wait on an Ack from an EXPELLED or ABSENT device end at once (R659). -/
def Dev.endMirrors (d : Dev) : Dev :=
  (d.coh.bmirs.filter (fun b => d.gone (d.rf .CMP_BUTTRESS_PEER b.entry))).foldl (fun d b => d.bmirLost b) d

/-- Requests that wait on an answer from an EXPELLED or ABSENT device end at once (R659). -/
def Dev.endGone (d : Dev) : Dev :=
  let d := d.endMirrors
  let dead := d.coh.reqs.filter (fun r => match d.reqHome r with | some h => d.gone h | none => false)
  if dead.isEmpty then d
  else ((dead.foldl (fun d r => (d.logReqTo r.port r.msg).endReq r) d).sweepsGo).slotsGo

/-- Ports whose route leads to a device. -/
def Dev.portsTo (d : Dev) (n : Nat) : List Nat := (List.range 16).filter (fun p => d.peerOf p == some n)

/-- A view changes (R659, R660, R677). -/
def Dev.setView (d : Dev) (n st : Nat) : Dev :=
  if n = d.devnum then
    let was := d.rf .TLY_STS_SELF
    let d := d.wf .TLY_STS_SELF 0 st
    if st = 3 ∧ was ≠ 3 then
      (List.range 16).foldl (fun d c => if d.chmState c = 1 then d.disableStart c false false else d) d
    else d
  else
    let d := d.wf .TLY_DEV_STATE n st
    let d := if st = 3 then (d.portsTo n).foldl (fun d p => d.loseLender p) d else d
    let d := if st = 0 then { d with tly.taken := kdel d.tly.taken n } else d
    if st = 0 ∨ st = 3 then d.endGone else d

/-! ### The score (R652) -/

/-- Weight of an event: 0 MISS, 1 PATH, 2 TIMEOUT, 3 RETRAIN, 4 DOWN, 5 PROTO, 6 CRC (R681). -/
def Dev.weightOf (d : Dev) (w : Nat) : Nat :=
  match w with
  | 0 => d.rf .TLY_WEIGHT_MISS
  | 1 => d.rf .TLY_WEIGHT_PATH
  | 2 => d.rf .TLY_WEIGHT_TIMEOUT
  | 3 => d.rf .TLY_WEIGHT_RETRAIN
  | 4 => d.rf .TLY_WEIGHT_DOWN
  | 5 => d.rf .TLY_WEIGHT_PROTO
  | _ => d.rf .TLY_WEIGHT_CRC

/-- W of a peer: the weights of its events in the tick just ended, saturating (R652). -/
def Dev.tickWeight (d : Dev) (n : Nat) : Nat :=
  let paths := sget 0 d.tly.arrived n
  let quiet := if paths = 0 then d.weightOf 0 else if paths = 3 then 0 else d.weightOf 1
  min 65535 ([2, 3, 4, 5, 6].foldl (fun s w => s + sget 0 d.tlyEv (n * 8 + w) * d.weightOf w) quiet)

/-- P after a tick (R652). -/
def penaltyAfter (p decay w : Nat) : Nat := min 65535 (p - p / 2 ^ decay + w)

/-- The score of a penalty (R652). -/
def tallyScore (p : Nat) : Nat := 255 - min p 255

/-- The penalty and score of every MEMBER and PROBATION peer at a tick (R652). -/
def Dev.scorePeers (d : Dev) : Dev :=
  (d.peers.filter d.inService).foldl (fun d n =>
    let p := penaltyAfter (d.rf .TLY_DEV_PENALTY n) (d.rf .TLY_CFG_DECAY) (d.tickWeight n)
    (d.wf .TLY_DEV_PENALTY n p).wf .TLY_DEV_SCORE n (tallyScore p)) d

/-! ### Exchange (R654-R656) -/

/-- Byte of TSCORE for a device (R656). -/
def Dev.scoreByte (d : Dev) (n : Nat) : Nat :=
  if n != d.devnum && d.member n && d.inService n then d.rf .TLY_DEV_SCORE n else 0xFF

/-- TSCORE of this device (R656). -/
def Dev.tscoreMsg (d : Dev) (path : Nat) (leaving : Bool) : Msg :=
  { homeMsg 0x60 0 2 with
      args := BitVec.ofNat 64 (8 + d.devnum * 2 ^ 16 + (path + 2 * b2n leaving) * 2 ^ 24 + d.rf .TLY_STS_SEQ * 2 ^ 32),
      data := (List.range 256).map (fun n => BitVec.ofNat 8 (d.scoreByte n)) }

/-- Sends a message of Tally to every other member over the fabric, and once on the management path (R654, R655). -/
def Dev.tallySend (d : Dev) (m : Nat → Msg) : Dev :=
  let d := d.peers.foldl (fun d n => match d.route (n * 2 ^ 48) with
    | .away p _ => d.send (.msg p (m 0))
    | _ => d) d
  d.send (.haresh (m 1))

/-- This device takes part in Tally: a Bond is active, and it is a member. -/
def Dev.tallying (d : Dev) : Bool := d.active && d.member d.devnum

/-- TSCORE goes out with the next SEQ (R654); the device's own state becomes MEMBER with its first (R651, log 50). -/
def Dev.tscoreOut (d : Dev) (leaving : Bool) : Dev :=
  let d := d.inc .TLY_STS_SEQ
  let d := if d.rf .TLY_STS_SELF = 0 then d.wf .TLY_STS_SELF 0 1 else d
  d.tallySend (fun path => d.tscoreMsg path leaving)

/-! ### Deciding (R657, R658) -/

/-- The decider for a device, as this member finds it (R657). -/
def Dev.decider (d : Dev) (x : Nat) : Option Nat :=
  (List.range 256).find? (fun n => n != x && d.member n && d.inService n &&
    (n == d.devnum || (match kget d.tly.taken n with | some (_, t) => decide (d.gt ≤ t + 2000000) | none => false)))

/-- Arrival times of the low votes standing on a device from senders that count (R657). -/
def Dev.lowVotes (d : Dev) (x : Nat) : List Nat :=
  (d.tly.votes.filter (fun v => v.1 % 256 == x && v.1 / 256 != x && d.inService (v.1 / 256))).map Prod.snd

/-- At least `n` of the times lie within one 2 ms window (R657). -/
def withinWindow (n : Nat) (ts : List Nat) : Bool :=
  ts.any (fun t => decide (n ≤ (ts.filter (fun u => decide (t ≤ u ∧ u ≤ t + 2000000))).length))

/-- EXPEL decisions applied in the last 600 s (R658, R682). -/
def Dev.expelsNow (d : Dev) : Nat := (d.tly.expels.filter (fun t => decide (d.gt < t + 600000000000))).length

/-- EXPEL is applied, and charged to the budget (R658). -/
def Dev.applyExpel (d : Dev) (x : Nat) : Dev :=
  ({ d with tly.expels := d.gt :: d.tly.expels.filter (fun t => decide (d.gt < t + 600000000000)) }).setView x 3

/-- TEXPEL (R656). -/
def texpelMsg (x kind seq : Nat) : Msg :=
  { homeMsg 0x61 0 2 with args := BitVec.ofNat 64 (x * 2 ^ 16 + kind * 2 ^ 24 + seq % 2 ^ 32 * 2 ^ 32) }

/-- The decision on a device (R658). -/
def Dev.decide_ (d : Dev) (x : Nat) : Dev :=
  let expel := decide (d.expelsNow < d.rf .TLY_EXPEL_MAX_MAX)
  let d := if expel then d else d.send (.report 3 x)
  let d := d.tallySend (fun _ => texpelMsg x (if expel then 1 else 2) (d.rf .TLY_STS_SEQ))
  if expel then d.applyExpel x else d.setView x 2

/-- This member decides on every device on which it is the decider and enough votes stand (R657). -/
def Dev.decideAll (d : Dev) : Dev :=
  d.peers.foldl (fun d x =>
    if d.view x = 1 ∧ d.decider x = some d.devnum ∧ withinWindow (d.rf .TLY_CFG_VOTES) (d.lowVotes x) = true then d.decide_ x else d) d

/-- The millisecond tick (R652, R654); a member that has become the decider, the one before it silent, decides (R657, R664). -/
def Dev.tallyTick (d : Dev) : Dev :=
  if !d.tallying then d
  else
    let d := d.scorePeers
    (({ d with tlyEv := [], tly.arrived := [] }).tscoreOut false).decideAll

/-! ### Messages that arrive -/

/-- The votes that a TSCORE brings (R657). -/
def Dev.takeVotes (d : Dev) (s : Nat) (data : Bytes) : Dev :=
  (List.range 256).foldl (fun d x =>
    if d.member x then
      if (data.getD x 0xFF).toNat < d.rf .TLY_CFG_THRESH then { d with tly.votes := kput d.tly.votes (s * 256 + x) d.gt }
      else { d with tly.votes := kdel d.tly.votes (s * 256 + x) }
    else d) d

/-- TSCORE of a sender, on the fabric (0) or the management path (1) (R651, R654, R657, R661). -/
def Dev.tscoreTake (d : Dev) (path : Nat) (m : Msg) : Dev :=
  let a := m.args.toNat
  let s := bits a 16 8
  let seq := bits a 32 32
  if !d.tallying || !d.member s || s == d.devnum then d
  else
    let d := { d with tly.arrived := kput d.tly.arrived s (sget 0 d.tly.arrived s ||| 2 ^ path) }
    let fresh := match kget d.tly.taken s with | some (q, _) => serialAfter 32 seq q | none => true
    if !fresh then d
    else if bit a 25 then d.setView s 0
    else
      let d := { d with tly.taken := kput d.tly.taken s (seq, d.gt) }
      let d := if d.view s = 0 then d.setView s 1 else d
      (d.takeVotes s m.data).decideAll

/-- TSCORE arrives, on a fabric port or the management path (R654); it is taken from an EXPELLED device too (R659). -/
def Dev.tscore (d : Dev) (port : Option Nat) (m : Msg) : Dev :=
  match port with
  | none => d.tscoreTake 1 (asOp 0x60 m)
  | some p => d.onMortar p 0x60 m (fun d m => if d.rb .HUB_FP_CFG_PEER p then d.tscoreTake 0 m else d)

/-- A member applies a TEXPEL (R658). -/
def Dev.texpelTake (d : Dev) (m : Msg) : Dev :=
  let x := bits m.args.toNat 16 8
  let kind := bits m.args.toNat 24 8
  if !d.tallying || !d.member x || d.view x == 2 || d.view x == 3 then d
  else if kind = 1 then
    if d.rf .TLY_EXPEL_MAX_MAX < d.expelsNow + 1 then (d.setView x 2).wb .TLY_STS_CONFLICT 0 true else d.applyExpel x
  else if kind = 2 then d.setView x 2
  else d

/-- TEXPEL arrives, on a fabric port or the management path (R655, R658). -/
def Dev.texpel (d : Dev) (port : Option Nat) (m : Msg) : Dev :=
  match port with
  | none => d.texpelTake (asOp 0x61 m)
  | some p => d.onMortar p 0x61 m (fun d m => if d.rb .HUB_FP_CFG_PEER p && !d.peerShut p then d.texpelTake m else d)

/-! ### Commands (R663) -/

/-- TLY_CMD REINSTATE: MEMBER with P = 0. -/
def Dev.reinstate (d : Dev) (x : Nat) : Dev :=
  if !d.member x then d
  else ((d.setView x 1).wf .TLY_DEV_PENALTY x 0).wf .TLY_DEV_SCORE x 255

/-- TLY_CMD EXPEL: EXPELLED, charging no budget. -/
def Dev.expelCmd (d : Dev) (x : Nat) : Dev := if d.member x then d.setView x 3 else d

/-- TLY_CMD PROBATION. -/
def Dev.probationCmd (d : Dev) (x : Nat) : Dev := if d.member x then d.setView x 2 else d

/-- TLY_STS.DECIDER: the decider for the lowest-numbered MEMBER other than this device (R682). -/
def Dev.deciderField (d : Dev) : Nat :=
  match d.peers.find? (fun n => d.view n == 1) with
  | some x => (d.decider x).getD 0
  | none => 0

end Sys2Proof.Machine
end

