-- ==== Sys2Proof/Machine/Compose.lean ====
section
/-!
DEFINITION. Composition: Buttress mirrors, map changes by epoch, RERTE, revocation, disputed Hoards (17 R665-R679, R684-R688).
-/

namespace Sys2Proof.Machine

/-! ### Buttress (R665-R668) -/

/-- Clears the pair's sequence numbers and sets its STATE. -/
def Dev.pairSet (d : Dev) (k st : Nat) : Dev :=
  { d.wf .CMP_BUTTRESS_STATE k st with
      coh.bseq := kdel d.coh.bseq k, coh.bseqIn := kdel d.coh.bseqIn k,
      comp.mirrorIn := d.comp.mirrorIn.filter (fun x => x.entry != k) }

/-- CMP_BUTTRESS.EN is written (R665, R667): set on a primary it starts the copy; a mirror side is SYNC from then on (log 51). -/
def Dev.pairEnable (d : Dev) (k : Nat) (en : Bool) : Dev :=
  if en == d.rb .CMP_BUTTRESS_EN k then d
  else if en then (d.wb .CMP_BUTTRESS_EN k true).pairSet k (if d.rb .CMP_BUTTRESS_ROLE k then 2 else 1)
  else (d.wb .CMP_BUTTRESS_EN k false).pairSet k 0

/-- The write that sets CMP_BUTTRESS.EN (R665). -/
def Dev.buttressEnable (d : Dev) (k : Nat) : Dev := d.pairEnable k true

/-- The copy of a primary extent to its mirror ends (R665). -/
def Dev.buttressCopyDone (d : Dev) (k : Nat) : Dev :=
  if d.rb .CMP_BUTTRESS_EN k && !d.rb .CMP_BUTTRESS_ROLE k && d.rf .CMP_BUTTRESS_STATE k == 1 then
    (d.send (.mirrorCopy (d.rf .CMP_BUTTRESS_PEER k) (d.rf .CMP_BUTTRESS_PEER_EXT k))).wf .CMP_BUTTRESS_STATE k 2
  else d

/-- The mirror entry that a BMIR names. -/
def Dev.bmirEntry (d : Dev) (m : Msg) : Option Nat :=
  let pa := m.addr.toNat
  if pa / 2 ^ 48 ≠ d.devnum then none
  else (List.range 64).find? (fun k => d.rb .CMP_BUTTRESS_EN k && d.rb .CMP_BUTTRESS_ROLE k &&
    d.rf .CMP_BUTTRESS_EXTENT k == pa / 2 ^ 28 % 2 ^ 20 && d.rf .CMP_BUTTRESS_CHAMBER k == m.chamber.toNat)

/-- Applies the lines of a BMIR and answers Ack, with the outcome of stage 4 for its extent (R666, 01 R29-R31, 02 R57, R84). -/
def Dev.bmirApply (d : Dev) (port : Nat) (m : Msg) : Dev :=
  let l := m.addr.toNat % 2 ^ 48 / 64
  let c := m.chamber.toNat
  let end_ (d : Dev) (st : Nat) : Dev := d.send (.msg port (ackMsg m st false))
  match d.stage4 c (lineExt l) true true with
  | .ok | .held =>
    end_ ((List.range (m.args.toNat % 4 + 1)).foldl (fun d i =>
      d.wrLine (l + i) fullMask (padTo 64 ((m.data.drop (64 * i)).take 64)) false) d) 0
  | .check => end_ (d.failCheck c 0 m.addr.toNat 0x66 m.src.toNat) 0x7F
  | .revoked => end_ d 0x40
  | .lost => end_ (d.logLost c l true m.src.toNat) 0x30
  | .wprot => end_ d 0x7F

/-- What a BMIR waits for: an extent in SEAL or FREE, which holds it, a line in service, or a Held copy of an agent, which is taken
back first as for any write (01 R29, 02 R57, R60, 04 R152, R154). -/
def Dev.bmirWait (d : Dev) (m : Msg) : Option Blk :=
  let l := m.addr.toNat % 2 ^ 48 / 64
  match d.stage4 m.chamber.toNat (lineExt l) true true with
  | .held => some (.held (lineExt l))
  | .ok => (((List.range (m.args.toNat % 4 + 1)).map (fun i => l + i)).find? (fun x =>
      d.lineTaken x || d.lineServing x)).map Blk.line
  | _ => none

/-- Applies the BMIRs that follow in BSEQ order, up to one that must wait (R666); with that one, when there is one. -/
def Dev.bmirNext (d : Dev) (k : Nat) : Nat → Dev × Option (MirrorIn × Blk)
  | 0 => (d, none)
  | fuel + 1 =>
    let want := sget 0 d.coh.bseqIn k
    match d.comp.mirrorIn.find? (fun x => x.entry == k && x.bseq == want) with
    | none => (d, none)
    | some x =>
      match d.bmirWait x.msg with
      | some b => (d, some (x, b))
      | none =>
        let d := { d with comp.mirrorIn := d.comp.mirrorIn.erase x, coh.bseqIn := sput 0 d.coh.bseqIn k (u32 (want + 1)) }
        (d.bmirApply x.port x.msg).bmirNext k fuel

/-- The BMIRs of a mirror entry go on; the one that must wait is taken up again afterwards, and those behind it with it. -/
def Dev.bmirGo (d : Dev) (at_ : SvcAt) (k : Nat) : Dev :=
  match d.bmirNext k d.comp.mirrorIn.length with
  | (d, none) => d
  | (d, some (x, b)) =>
    if d.svcs.any (fun s => s.2.work == .msg x.port x.msg) then d
    else d.svc at_ (.msg x.port x.msg) x.msg.chamber.toNat (fun _ => match b with
      | .line l => if d.lineTaken l then eSnoop l false else eBlock b id
      | _ => eBlock b id)

/-- BMIR arrives at a mirror, on a PEER port as every PA form (R665, R666, 02 R83, 04 R133); with no Bond active none is served (01
R33). -/
def Dev.bmir (d : Dev) (port : Nat) (m : Msg) : Dev :=
  d.onMortar port 0x66 m (fun d m =>
    if d.peerShut port || !d.active then d
    else if !d.rb .HUB_FP_CFG_PEER port then (d.logProtocol port m).send (.msg port (ackMsg m 0x7F false))
    else match d.bmirEntry m with
    | none => (d.failCheck m.chamber.toNat 0 m.addr.toNat 0x66 m.src.toNat).send (.msg port (ackMsg m 0x7F false))
    | some k =>
      let x : MirrorIn := { entry := k, bseq := m.args.toNat / 2 ^ 32, port := port, msg := m }
      { d with comp.mirrorIn := d.comp.mirrorIn ++ [x] }.bmirGo none k)

/-- A BMIR that waited is taken up again. -/
def Dev.bmirAgain (d : Dev) (at_ : SvcAt) (m : Msg) : Dev :=
  match d.bmirEntry m with | some k => d.bmirGo at_ k | none => d

/-- A BMIR has no Ack within MRT_REQ_TMO: the pair is BROKEN (R667). -/
def Dev.bmirTimeout (d : Dev) (k bseq : Nat) : Dev :=
  match d.coh.bmirs.find? (fun b => b.entry == k && b.bseq == bseq) with
  | none => d
  | some b => d.bmirLost b

/-! ### Map changes (R669-R673) -/

/-- What refuses a STAGE (R672): 0 NONE, 1 EPOCH, 2 BUSY, 3 ENTRY, 4 STATE. -/
def Dev.stageErr (d : Dev) (epoch : Nat) : Nat :=
  let ks := List.range 4096
  let home (k : Nat) : Nat := d.rf .CMP_ROUTE_STG_HOME k
  if epoch ≠ (d.rf .CMP_STS_EPOCH + 1) % 256 then 1
  else if d.rb .CMP_STS_GRACE then 2
  else if ks.any (fun k => d.rb .CMP_ROUTE_STG_VALID k && (!d.member (home k) || d.view (home k) == 3)) then 3
  else if d.rf .TLY_STS_SELF == 2 && ks.any (fun k => d.rb .CMP_ROUTE_STG_VALID k && home k == d.devnum &&
      !(d.rb .CMP_ROUTE_VALID k && d.rf .CMP_ROUTE_HOME k == d.devnum)) then 4
  else 0

/-- CMP_CMD STAGE (R671, R672). -/
def Dev.cmpStage (d : Dev) (epoch : Nat) : Dev :=
  let e := d.stageErr epoch
  if e = 0 then
    (((d.wf .CMP_STS_ERR 0 0).wb .CMP_STS_STAGED_V 0 true).wf .CMP_STS_STAGED 0 epoch).send (.report 5 epoch)
  else d.wf .CMP_STS_ERR 0 e

/-- CMP_ROUTE k takes its staged entry. -/
def Dev.routeTake (d : Dev) (k : Nat) : Dev :=
  ((((((d.wf .CMP_ROUTE_VALID k (d.rf .CMP_ROUTE_STG_VALID k)).wf .CMP_ROUTE_STANDIN k (d.rf .CMP_ROUTE_STG_STANDIN k)).wf
    .CMP_ROUTE_HOME k (d.rf .CMP_ROUTE_STG_HOME k)).wf .CMP_ROUTE_PORT k (d.rf .CMP_ROUTE_STG_PORT k)).wf
    .CMP_ROUTE_ALTPORT k (d.rf .CMP_ROUTE_STG_ALTPORT k)).wf .CMP_ROUTE_ALT_EN k (d.rf .CMP_ROUTE_STG_ALT_EN k))

/-- Bucket `i` of the staged table differs from the one in force. -/
def Dev.bktChanged (d : Dev) (i : Nat) : Bool :=
  d.rf .CMP_BKT_STG_DEV i != d.rf .HRD_BKT_DEV i || d.rf .CMP_BKT_STG_PREV i != d.rf .HRD_BKT_PREV i ||
    d.rf .CMP_BKT_STG_PREV_V i != d.rf .HRD_BKT_PREV_V i

/-- The staged table takes effect (R671 step 4). -/
def Dev.commitMap (d : Dev) : Dev :=
  let e := d.rf .CMP_STS_STAGED
  let d := (List.range 4096).foldl (fun d k => d.routeTake k) d
  let d := ((d.wf .CMP_STS_EPOCH 0 e).wb .CMP_STS_STAGED_V 0 false).wb .CMP_STS_GRACE 0 true
  let d := ((List.range 4096).filter (fun i => d.chmDefined (i / 256) && d.bktChanged i)).foldl (fun d i =>
    d.bucketWrite (i / 256) (i % 256) (d.rf .CMP_BKT_STG_DEV i) (d.rf .CMP_BKT_STG_PREV i) (d.rb .CMP_BKT_STG_PREV_V i)) d
  (List.range 16).foldl (fun d p =>
    if d.rb .HUB_FP_CFG_PEER p then d.send (.msg p { homeMsg 0x62 0 0 with args := BitVec.ofNat 64 (e * 2 ^ 16) }) else d) d

/-- CMP_CMD COMMIT (R671): it commits the table that is staged for its epoch; with none it changes nothing (log 52). -/
def Dev.cmpCommit (d : Dev) (epoch : Nat) : Dev :=
  if d.rb .CMP_STS_STAGED_V && d.rf .CMP_STS_STAGED == epoch then d.commitMap else d

/-- CMP_CMD ABORT (R672). -/
def Dev.cmpAbort (d : Dev) : Dev := d.wb .CMP_STS_STAGED_V 0 false

/-- CMP_GRACE after the commit (R671 step 5). -/
def Dev.graceEnd (d : Dev) : Dev := d.wb .CMP_STS_GRACE 0 false

/-- EMARK arrives on a PEER port (R670, R672). -/
def Dev.emark (d : Dev) (port : Nat) (m : Msg) : Dev :=
  d.onMortar port 0x62 m (fun d m =>
    if !d.rb .HUB_FP_CFG_PEER port || d.peerShut port then d
    else
      let e := bits m.args.toNat 16 8
      ({ d with portEpoch := kput d.portEpoch port e }).cmpCommit e)

/-! ### RERTE (R674) -/

/-- A request that RERTE has answered ends with a status (R669, R674). -/
def Dev.rerouteStop (d : Dev) (r : DevReq) (status : Nat) : Dev :=
  let d := d.dropReq r
  let fail : List Ans := ansOf r { ackMsg r.msg status false with data := [] }
  match r.why with
  | .op id => (d.giveAns r.why fail).writeRecord id
  | .walk id => { d with coh.slots := kmod d.coh.slots id (fun sl => { sl with ans := fail }) }
  | .mason _ | .portal _ | .svc _ => d.giveAns r.why fail
  | .zero => d.zeroNext
  | .settle jid => d.settleTake jid fail
  | .none => d
  | .slot id =>
    match d.slot id with
    | none => d
    | some sl => if sl.cxl.isSome && isRead sl.msg.opc then d.finishPoison id sl else d.finishAck id sl status

/-- A request that RERTE has answered three times ends (R674). -/
def Dev.rerouteEnd (d : Dev) (r : DevReq) : Dev := (d.bump .CMP_CNT_EXHAUSTED).rerouteStop r 0x41

/-- A request whose place the current table does not route is a failed Chamber check (R669, 06 R221). -/
def Dev.rerouteBad (d : Dev) (r : DevReq) : Dev :=
  let who := match r.why with | .slot id => (match d.slot id with | some sl => sl.who | none => 0xFFFF) | _ => 0xFFFF
  (d.failCheck r.msg.chamber.toNat (b2n (!r.msg.af)) r.msg.addr.toNat r.msg.opc who).rerouteStop r 0x7F

/-- A request whose home is this device by the current table: it is served here. -/
def Dev.rerouteHere (d : Dev) (r : DevReq) : Dev :=
  let d := d.dropReq r
  match r.why with
  | .op id => { d with ops := kmod d.ops id (fun o => match o.phase with
      | .blocked (.answer _) => { o with phase := .ready } | _ => o) }
  | .mason k => { d with masons := kmod d.masons (k / 4) (fun m =>
      { m with queues := kmod m.queues (k % 4) (fun q => match q with
        | b :: l => { b with blk := none } :: l
        | [] => []) }) }
  | .slot id => d.routeSlot id
  | .svc n => { d with svcs := kmod d.svcs n (fun s => match s.blk with
      | .answer _ => { s with blk := .stalled 0 } | _ => s) }
  | _ => d

/-- RERTE arrives (R674): the request it answers is the one with its TAG and ADDR. -/
def Dev.rerte (d : Dev) (port : Nat) (m : Msg) : Dev :=
  d.onMortar port 0x63 m (fun d m =>
    if d.peerShut port then d
    else match d.coh.reqs.find? (fun r => r.port == port && r.msg.tag == m.tag && r.msg.addr == m.addr) with
    | none => d.bump .MRT_CNT_LATE
    | some r =>
      if 3 ≤ r.reroutes then ((d.rerouteEnd r).sweepsGo).slotsGo
      else match d.route r.msg.addr.toNat with
        | .away p home =>
          if d.gone home then (((d.logReqTo r.port r.msg).endReq r).sweepsGo).slotsGo
          else { d with coh.reqs := d.coh.reqs.map (fun x => if x = r then { x with port := p, reroutes := x.reroutes + 1 } else x) }.send (.msg p r.msg)
        | .here | .standin => ((d.rerouteHere r).sweepsGo).slotsGo
        | .bad => ((d.rerouteBad r).sweepsGo).slotsGo)

/-! ### Revocation (R675-R677) -/

/-- The line lies in the run. -/
def inRun (first count line : Nat) : Bool := decide (first ≤ lineExt line ∧ lineExt line < first + count)

/-- What keeps a revocation going: tracked lines of the run, transactions on them, requests in service or at the lender. -/
def Dev.runBusy (d : Dev) (v : Revoke) : Bool :=
  d.coh.dir.any (fun e => inRun v.first v.count e.1) || d.coh.txns.any (fun e => inRun v.first v.count e.1) ||
    d.coh.slots.any (fun e => decide (e.2.pa < 2 ^ 60) && e.2.pa / 2 ^ 48 == d.devnum && e.2.phase != .forward &&
      inRun v.first v.count e.2.line) ||
    d.coh.reqs.any (fun r => r.line / 2 ^ 42 == d.devnum && decide (r.msg.opc < 0x20) && inRun v.first v.count (r.line % 2 ^ 42))

/-- LREVOKED to a lender (R656, R676). -/
def lrevokedMsg (m : Msg) (status : Nat) : Msg :=
  { homeMsg 0x65 0 2 with status := BitVec.ofNat 8 status, dst := m.src, tag := m.tag, addr := m.addr }

/-- One revocation goes on: lines that are free are swept; when nothing is left the extents still REVOKING become ABSENT (R676, 02 R58). -/
def Dev.revokeGo (d : Dev) (v : Revoke) : Dev :=
  let free := (d.coh.dir.filter (fun e => inRun v.first v.count e.1 && !d.lineBusy e.1 && !d.lineServing e.1)).map Prod.fst
  let d := free.foldl (fun d l => d.openTxn l .revoke false none) d
  let gone (d : Dev) (n : Nat) : Dev := if (d.extent n).st = .revoking then d.enterAbsent n else d
  if d.runBusy v then d
  else
    let d := { d with comp.revokes := d.comp.revokes.erase v }
    let d := (List.range v.count).foldl (fun d i => gone d (v.first + i)) d
    match v.from_ with
    | some (p, m) => d.send (.msg p (lrevokedMsg m 0))
    | none => (d.wb .CMP_REVOKE_BUSY 0 false).wf .CMP_REVOKE_RESULT 0 0

/-- Every revocation in progress goes on. -/
def Dev.revokesGo (d : Dev) : Dev := d.comp.revokes.foldl (fun d v => d.revokeGo v) d

/-- A revocation starts (R676 step 1). -/
def Dev.revokeStart (d : Dev) (v : Revoke) : Dev :=
  let d := (List.range v.count).foldl (fun d i => d.setExt (v.first + i) { d.extent (v.first + i) with st := .revoking }) d
  ({ d with comp.revokes := d.comp.revokes ++ [v] }).revokeGo v

/-- Every extent of the run is LENT (R675). -/
def Dev.runLent (first count : Nat) : Bool := (List.range count).all (fun i => extKind (first + i) == .lent)

/-- Every extent of the run is OPEN or IMMUTABLE. -/
def Dev.runHeld (d : Dev) (first count : Nat) : Bool :=
  (List.range count).all (fun i => match (d.extent (first + i)).st with | .open_ | .immutable => true | _ => false)

/-- A revocation of a run waits until the extent command that has extents of it in hand is over (02 R59). -/
def Dev.revokeLater (d : Dev) (from_ : Option (Nat × Msg)) (first count : Nat) : Dev :=
  { d with comp.later := d.comp.later ++ [(from_, first, count)] }

/-- A revocation that a lender asks for, of the run that begins at extent `n` (R675, R676). -/
def Dev.revokeAsked (d : Dev) (port : Nat) (m : Msg) (n : Nat) : Dev :=
  let t := m.addr.toNat / 2 ^ 28
  let count := m.args.toNat / 2 ^ 32
  if m.addr.toNat % 2 ^ 28 ≠ 0 ∨ count = 0 ∨ 4095 < count ∨ Dev.runLent n count = false ∨ d.runHeld n count = false ∨
      ((List.range count).all (fun i => (d.extent (n + i)).port == port && (d.extent (n + i)).target == t + i)) = false then
    d.send (.msg port (lrevokedMsg m 0x7F))
  else (d.revokeStart { from_ := some (port, m), first := n, count := count, late := false }).slotsGo

/-- LREVOKE arrives from a lender (R675, R676). -/
def Dev.lrevoke (d : Dev) (port : Nat) (m : Msg) : Dev :=
  d.onMortar port 0x64 m (fun d m =>
    let bad (d : Dev) : Dev := d.send (.msg port (lrevokedMsg m 0x7F))
    if d.peerShut port then d
    else if !d.senderListed port m then bad (d.logProtocol port m)
    else
      match d.ext.find? (fun e => extKind e.1 == .lent && e.2.port == port && e.2.target == m.addr.toNat / 2 ^ 28 && e.2.st != .absent) with
      | none => bad d
      | some (n, _) =>
        if d.inHand n (m.args.toNat / 2 ^ 32) then d.revokeLater (some (port, m)) n (m.args.toNat / 2 ^ 32) else d.revokeAsked port m n)

/-- A revocation that CMP_REVOKE commands (R675, R686). -/
def Dev.revokeOwn (d : Dev) (first count : Nat) : Dev :=
  if d.runHeld first count = false then (d.wb .CMP_REVOKE_BUSY 0 false).wf .CMP_REVOKE_RESULT 0 1
  else ((d.wb .CMP_REVOKE_BUSY 0 true).revokeStart { from_ := none, first := first, count := count, late := false }).slotsGo

/-- A write of CMP_REVOKE (R675, R686). -/
def Dev.cmpRevoke (d : Dev) (first count : Nat) : Dev :=
  if d.rb .CMP_REVOKE_BUSY then d
  else if count = 0 ∨ Dev.runLent first count = false then d.wf .CMP_REVOKE_RESULT 0 2
  else if d.inHand first count then (d.wb .CMP_REVOKE_BUSY 0 true).revokeLater none first count
  else d.revokeOwn first count

/-- An extent command has gone on: revocations that waited for it start, in the order of their arrival (02 R59). -/
def Dev.laterGo (d : Dev) : Dev :=
  let go := d.comp.later.filter (fun x => !d.inHand x.2.1 x.2.2)
  go.foldl (fun d x => match x.1 with
    | some (port, m) => d.revokeAsked port m x.2.1
    | none => d.revokeOwn x.2.1 x.2.2) { d with comp.later := d.comp.later.filter (fun x => d.inHand x.2.1 x.2.2) }

/-- A request in service ends at CMP_REVOKE_TMO (R676 step 4). -/
def Dev.revokeSlot (d : Dev) (id : Nat) (sl : Slot) : Dev :=
  let d := (d.bump .CMP_CNT_REVOKE_LATE).logLost sl.chamber sl.line (isWrite sl.msg.opc) sl.who
  if isRead sl.msg.opc then d.finishPoison id sl else d.finishAck id sl 0x40

/-- A request at the lender ends at CMP_REVOKE_TMO: a read is poisoned, a write dropped, and its operation ends (R676 step 4). -/
def Dev.revokeReq (d : Dev) (r : DevReq) : Dev :=
  let d := (d.dropReq r).bump .CMP_CNT_REVOKE_LATE
  let d := d.logLost r.msg.chamber.toNat (r.line % 2 ^ 42) (isWrite r.msg.opc) r.msg.src.toNat
  let fail : List Ans := ansOf r { ackMsg r.msg 0x40 false with data := [] }
  match r.why with
  | .op id => (d.giveAns r.why fail).writeRecord id
  | .walk id => { d with coh.slots := kmod d.coh.slots id (fun sl => { sl with ans := fail }) }
  | .mason _ | .portal _ | .svc _ => d.giveAns r.why fail
  | .zero => d.zeroNext
  | .settle jid => d.settleTake jid fail
  | _ => d

/-- CMP_REVOKE_TMO has passed since a revocation of the run that begins at `first` started (R676 step 4). -/
def Dev.revokeTimeout (d : Dev) (first : Nat) : Dev :=
  match d.comp.revokes.find? (fun v => v.first == first && !v.late) with
  | none => d
  | some v =>
    let mine (e : Nat × Slot) : Bool := decide (e.2.pa < 2 ^ 60) && e.2.pa / 2 ^ 48 == d.devnum && e.2.phase != .forward &&
      inRun v.first v.count e.2.line
    let rs := d.coh.reqs.filter (fun r => r.line / 2 ^ 42 == d.devnum && decide (r.msg.opc < 0x20) &&
      inRun v.first v.count (r.line % 2 ^ 42))
    let slots := d.coh.slots.filter mine
    let d := { d with comp.revokes := d.comp.revokes.map (fun x => if x = v then { v with late := true } else x) }
    let d := slots.foldl (fun d e => d.revokeSlot e.1 e.2) d
    let d := rs.foldl (fun d r => match r.why with | .slot _ => d.dropReq r | _ => d.revokeReq r) d
    (d.revokesGo).slotsGo

/-! ### Disputed ownership (R678, R679) -/

/-- What the owner knows of the handoff of a record: its entry while it runs, else the PREPARE that it journaled. -/
def Dev.hoffOf (d : Dev) (c : Nat) (r : HRec) : Option (Nat × Hoff) :=
  let fam := tagFam r.tag
  match d.hrd.hoffs.find? (fun h => h.2.chamber == c && h.2.key == r.key && h.2.fam == fam) with
  | some h => some h
  | none =>
    let s := u32 (r.hseq + 1)
    (d.led.journal.find? (fun e => e.typ == 0x30 && e.id == hJournalId r.key fam s)).map (fun e =>
      (freshKey d.hrd.hoffs 0, { chamber := c, key := r.key, fam := fam, tag := r.tag, dev := field e.payload 20 1, s := s, stage := 3, tries := 2,
                                 old := field e.payload 22 1, since := d.gt }))

/-- CMP_RESOLVE on the record of an index slot (R678, R679): one that is not DOUBT or HANDING is left as it is. -/
def Dev.resolve (d : Dev) (at_ : SvcAt) (winner c slot : Nat) : Dev :=
  d.svc at_ (.resolve winner c slot) c (fun w => do
    let r ← eIdx w slot
    let d ← eGet
    if r.st ≠ 5 ∧ r.st ≠ 3 then return id
    match d.hoffOf c r with
    | none => return id
    | some (k, h) =>
      if winner = d.devnum then
        return fun d => (d.hSend h.dev k (hctlMsg 0 c 4 h.s h.key r.tag 0)).hoffAbort k { h with tries := 2 }
      else
        let e : JRec := { typ := 0x32, seq := 0, id := hJournalId h.key h.fam h.s, payload := hPayload h.key h.tag winner c h.old k }
        return fun d => { d with hrd.hoffs := kput d.hrd.hoffs k { h with dev := winner } }.hoffReleased none e k)

/-- A write of CMP_RESOLVE (R678, R679). -/
def Dev.cmpResolve (d : Dev) (winner c slot : Nat) : Dev :=
  if d.rb .HRD_IDX_EN c && decide (slot < d.idxSize c) then d.resolve none winner c slot else d

end Sys2Proof.Machine
end

