-- ==== Sys2Proof/Machine/Resume.lean ====
section
/-!
DEFINITION. Work of the service cores that waited is taken up again (01 R29-R31, log 131).
-/

namespace Sys2Proof.Machine

/-- A TCTL message about a Keystone or a row, taken up again (12 R498). -/
def Dev.tctlAgain (d : Dev) (at_ : SvcAt) (port : Nat) (m : Msg) : Dev :=
  match m.args.toNat / 2 ^ 16 % 256 with
  | 0 => d.memberStage at_ (some port) m
  | 1 => d.memberFlip at_ (some port) m
  | 2 => d.memberAbandon at_ (some port) m
  | 4 => d.reserveMsg at_ port m
  | 5 => d.copyMsg at_ port m
  | 6 => d.logMsg at_ port m
  | 7 => d.routeMsg at_ port m
  | 8 => d.releaseMsg at_ port m
  | 9 => d.replMsg at_ port m
  | _ => d

/-- A service message taken up again. -/
def Dev.msgAgain (d : Dev) (at_ : SvcAt) (port : Nat) (m : Msg) : Dev :=
  match m.opc with
  | 0x50 => d.subBatch at_ port m false
  | 0x52 => d.subBatch at_ port m true
  | 0x53 => d.tctlAgain at_ port m
  | 0x57 => d.commitReq at_ port m
  | 0x66 => d.bmirAgain at_ m
  | _ => d

/-- A message of this device to itself, as a member, taken up again (12 R483). -/
def Dev.ownAgain (d : Dev) (at_ : SvcAt) (m : Msg) : Dev :=
  match m.args.toNat / 2 ^ 16 % 256 with
  | 0 => d.memberStage at_ none m
  | 1 => d.memberFlip at_ none m
  | _ => d.memberAbandon at_ none m

/-- An entry of a ring, once no agent holds its line (08 R332, 12 R502). -/
def Dev.postAgain (d : Dev) (at_ : SvcAt) (c : Nat) (rows : Bool) (b : Bytes) : Dev :=
  d.svc at_ (.post c rows b) c (fun w => do
    eTake w (d.hotAt c rows / 64)
    return fun d => d.postNow c rows b)

/-- A closed batch, in the order of the numbers and once no agent holds a line of it (08 R320); one whose records are gone ends. -/
def Dev.batchAgain (d : Dev) (at_ : SvcAt) (c b : Nat) : Dev :=
  let ls := d.batchLines c b
  if ls.isEmpty then d
  else d.svc at_ (.batch c b) c (fun w => do
    if b ≠ u32 (d.rf .XLT_FQ_SEQ_DELIVERED c + 1) then eBlock (.line (ls.headD 0)) id
    for l in ls do
      eTake w l
    return fun d => d.batchWrite c b)

/-- One piece of work taken up again. -/
def Dev.svcDo (d : Dev) (at_ : SvcAt) (w : Svc) : Dev :=
  match w with
  | .msg port m => d.msgAgain at_ port m
  | .own m => d.ownAgain at_ m
  | .commit e => if 0x30 ≤ e.typ then d.hoffCommitted at_ e else d.tblCommitted at_ e
  | .leave h => d.hoardLeave at_ h
  | .bucket c b dev clear move => d.bucketScan at_ c b dev clear move
  | .handOut k => d.handOut at_ k
  | .query k => d.handoffAsk at_ k
  | .unread c pa ver => d.unread at_ c pa ver
  | .galUnread c pa gen => d.galUnread at_ c pa gen
  | .retire c table => d.retireAlt at_ c table
  | .entry m kind dev epoch flip => d.moveEntry at_ m kind dev epoch flip
  | .copy key => d.moveCopy at_ key
  | .image key => d.imageBack at_ key
  | .post c rows b => d.postAgain at_ c rows b
  | .batch c b => d.batchAgain at_ c b
  | .v1 c port f => d.v1Go at_ c port f
  | .resolve winner c slot => d.resolve at_ winner c slot
  | .zero c a n => d.zeroRange at_ c a n

/-- The work numbered `n` is taken up again when what it waited for has come. -/
def Dev.svcAgain (d : Dev) (n : Nat) : Dev :=
  match kget d.svcs n with
  | none => d
  | some s => if d.cleared s.chamber s.ans s.blk then { d with svcs := kdel d.svcs n }.svcDo (some (n, s.ans, s.blk)) s.work else d

/-- Every piece of work whose wait is over is taken up again, in the order of their numbers. -/
def Dev.svcGo (d : Dev) : Dev := (d.svcs.map Prod.fst).foldl (fun d n => d.svcAgain n) d

end Sys2Proof.Machine
end

