-- ==== Sys2Proof/Machine/RegMap.lean ====
section
/-!
DEFINITION. The offsets of control space, and the value of a register as a whole (19 R716-R731): which register and instance lie at an
offset, and what a read returns.
-/

namespace Sys2Proof.Machine

/-! ### Offsets (R722, R730, R731) -/

/-- Bytes that one instance of a register takes: its width, 8 at least (R722). -/
def Reg.bytes (r : Reg) : Nat := max 8 (r.info.width / 8)

/-- The instance that a remainder falls on in the last of a register's dimensions, and the rest (R730). -/
def inDim (n step x : Nat) : Option (Nat × Nat) := if x / step < n then some (x / step, x % step) else none

/-- The instance of a register at `x` bytes after its first, and the byte within it. Inner instances of fewer than 8 are numbered by 8. -/
def Reg.at_ (r : Reg) (x : Nat) : Option (Nat × Nat) :=
  match r.info.dims with
  | [] => if x < r.bytes then some (0, x) else none
  | [(n, s)] => (inDim n s x).bind (fun a => if a.2 < r.bytes then some a else none)
  | (n, s) :: (k, t) :: _ =>
    (inDim n s x).bind (fun a => (inDim k t a.2).bind (fun b =>
      if b.2 < r.bytes then some (a.1 * (if k < 8 then 8 else k) + b.1, b.2) else none))

/-- The register at an offset: its name, its instance, and the byte within it (R722, R730, R731). -/
def locate (off : Nat) : Option (Reg × Nat × Nat) :=
  allRegs.findSome? (fun r =>
    if r.info.base ≤ off then (r.at_ (off - r.info.base)).map (fun a => (r, a.1, a.2)) else none)

/-- The register lies in a Chamber's region (R731). -/
def Reg.ofChamber (r : Reg) : Bool := decide (0x400000 ≤ r.info.base)

/-- The Chamber in whose region an offset lies (R729). -/
def offChamber (off : Nat) : Nat := (off - 0x400000) / 0x40000

/-! ### Values -/

/-- The bytes of an error log entry as ERR_LOG_ENT shows them (16 R635). -/
def logBytes (e : LogEnt) : Bytes :=
  leBytes 4 e.seq ++ leBytes 1 e.kind ++ leBytes 1 (1 + 2 * b2n e.u + 4 * e.aform) ++ leBytes 1 e.tag ++ leBytes 1 e.uclass ++
    leBytes 2 e.unit ++ leBytes 2 e.agent ++ leBytes 4 e.detail ++ leBytes 8 e.addr ++ leBytes 8 e.gt

/-- The slot of its Course that a Mason serves, when it serves one (09 R384, R387). -/
def Dev.masonSlot (d : Dev) (k : Nat) : Option Nat :=
  (List.range 8).find? (fun g => (d.slotOwner (k / 9) g).isSome && d.slotMason (k / 9) g == k)

/-- A field as a register read shows it: fields that report other state are computed from it, WO fields read 0 (00 R9, 02 R56, 03 R128,
09 R387, 16 R644, R645, 17 R682). -/
def Dev.shown (d : Dev) (f : Fld) (i : Nat) : Nat :=
  match f with
  | .ERR_LOG_STS_ULIVE => (d.err.log.filter (fun e => e.2.u)).length
  | .ERR_LOG_STS_LIVE => d.err.log.length
  | .ERR_LOG_ENT_ENTRY => match kget d.err.log i with | some e => ofLE (logBytes e) | none => 0
  | .HUB_DSHARE_OCC => (d.dropUsed i + 3) / 4
  | .XLT_EXT_ENT_TARGET => (d.extent (d.rf .XLT_EXT_SEL_EXTENT)).target
  | .XLT_EXT_ENT_PORT => (d.extent (d.rf .XLT_EXT_SEL_EXTENT)).port
  | .XLT_EXT_ENT_GEN => (d.extent (d.rf .XLT_EXT_SEL_EXTENT)).gen
  | .XLT_EXT_ENT_CHAMBER => (d.extent (d.rf .XLT_EXT_SEL_EXTENT)).chamber
  | .XLT_EXT_ENT_AFFINE =>
    let n := d.rf .XLT_EXT_SEL_EXTENT
    b2n (extKind n == .t0 && decide (d.stripedExts ≤ n ∧ n < 3456))
  | .XLT_EXT_ENT_KIND => (extKind (d.rf .XLT_EXT_SEL_EXTENT)).code
  | .XLT_EXT_ENT_STATE => (d.extent (d.rf .XLT_EXT_SEL_EXTENT)).st.code
  | .MSN_STS_CHAMBER => match d.masonSlot i with | some g => (d.slotOwner (i / 9) g).getD 0 | none => 0
  | .MSN_STS_SLOT => (d.masonSlot i).getD 0
  | .TLY_STS_DECIDER => d.deciderField
  | .TLY_STS_EXPELS => min 255 d.expelsNow
  | _ => if f.info.ty = .wo then 0 else d.rf f i

/-- A register's value (00 R12: reserved bits read 0). -/
def Dev.regValue (d : Dev) (r : Reg) (i : Nat) : Nat :=
  r.fields.foldl (fun v f => v + d.shown f i % 2 ^ f.width * 2 ^ f.info.lo) 0

/-- The 8-byte word at an 8-byte-aligned offset; one that holds no register reads 0 (R718). -/
def Dev.regWord (d : Dev) (off : Nat) : Nat :=
  match locate off with
  | some (r, i, b) => d.regValue r i / 2 ^ (8 * b) % 2 ^ 64
  | none => 0

/-- A field's part of a register value. -/
def Fld.of (f : Fld) (v : Nat) : Nat := bits v f.info.lo f.width

end Sys2Proof.Machine
end

