-- ==== Sys2Proof/Machine/Sha3.lean ====
section
/-!
DEFINITION. SHA3-512, the digest that the spec names throughout chapter 15 (15 R580, R599, R603, R609): Keccak-f[1600] on 25 lanes,
lane x + 5y at place x + 5y, rate 72 bytes.
-/

namespace Sys2Proof.Machine

/-- A lane rotated left. -/
def rotl (n : Nat) (x : BitVec 64) : BitVec 64 := x.rotateLeft n

/-- Lane `i` of a state. -/
def lane (s : List (BitVec 64)) (i : Nat) : BitVec 64 := s.getD i 0

/-- Rotation of each lane. -/
def keccakRho : List Nat :=
  [0, 1, 62, 28, 27, 36, 44, 6, 55, 20, 3, 10, 43, 25, 39, 41, 45, 15, 21, 8, 18, 2, 61, 56, 14]

/-- Round constants. -/
def keccakRC : List (BitVec 64) :=
  [0x0000000000000001#64, 0x0000000000008082#64, 0x800000000000808A#64, 0x8000000080008000#64, 0x000000000000808B#64,
   0x0000000080000001#64, 0x8000000080008081#64, 0x8000000000008009#64, 0x000000000000008A#64, 0x0000000000000088#64,
   0x0000000080008009#64, 0x000000008000000A#64, 0x000000008000808B#64, 0x800000000000008B#64, 0x8000000000008089#64,
   0x8000000000008003#64, 0x8000000000008002#64, 0x8000000000000080#64, 0x000000000000800A#64, 0x800000008000000A#64,
   0x8000000080008081#64, 0x8000000000008080#64, 0x0000000080000001#64, 0x8000000080008008#64]

/-- One round with its constant. -/
def keccakRound (s : List (BitVec 64)) (rc : BitVec 64) : List (BitVec 64) :=
  let c := (List.range 5).map (fun x => lane s x ^^^ lane s (x + 5) ^^^ lane s (x + 10) ^^^ lane s (x + 15) ^^^ lane s (x + 20))
  let e := (List.range 5).map (fun x => lane c ((x + 4) % 5) ^^^ rotl 1 (lane c ((x + 1) % 5)))
  let t := (List.range 25).map (fun i => lane s i ^^^ lane e (i % 5))
  let b := (List.range 25).map (fun i =>
    -- the lane that pi moves to (x, y) is the one at (x + 3y, x)
    let x := i % 5
    let y := i / 5
    let j := (x + 3 * y) % 5 + 5 * x
    rotl (keccakRho.getD j 0) (lane t j))
  (List.range 25).map (fun i =>
    let y := i / 5 * 5
    let v := lane b i ^^^ (~~~ (lane b ((i + 1) % 5 + y)) &&& lane b ((i + 2) % 5 + y))
    if i = 0 then v ^^^ rc else v)

/-- Keccak-f[1600]. -/
def keccakF (s : List (BitVec 64)) : List (BitVec 64) := keccakRC.foldl keccakRound s

/-- One 72-byte block absorbed. -/
def absorb (s : List (BitVec 64)) (block : Bytes) : List (BitVec 64) :=
  keccakF ((List.range 25).map (fun i =>
    if i < 9 then lane s i ^^^ BitVec.ofNat 64 (field block (8 * i) 8) else lane s i))

/-- SHA3-512. -/
def sha3 (m : Bytes) : Bytes :=
  let pad := 72 - m.length % 72
  let tail : Bytes := if pad = 1 then [0x86#8] else 0x06#8 :: zeros (pad - 2) ++ [0x80#8]
  let s := (chunks 72 (m.length / 72 + 1) (m ++ tail)).foldl absorb (List.replicate 25 0)
  (s.take 8).flatMap (fun l => leBytes 8 l.toNat)

end Sys2Proof.Machine
end

