-- ==== Sys2Proof/Machine/Image.lean ====
section
/-!
DEFINITION. Signed images: the envelope, its directory and records, what a Bond or Chamber Bond may write, and every check that rejects
one (15 R579-R586, R594, R602-R604, 19 R728, R733).
A check answers the first failure it finds: an error code of BND_STS and a byte offset in the image.
-/

namespace Sys2Proof.Machine

/-- The outcome of a check: the error code and the byte offset of the first failure (R585, R613). -/
abbrev Chk (α : Type) := Except (Nat × Nat) α

/-- A condition that must hold. -/
def need (b : Bool) (code off : Nat) : Chk Unit := if b then .ok () else .error (code, off)

/-- The first failure of a list of conditions, each with its code and offset. -/
def needAll {α : Type} (l : List α) (f : α → Bool × Nat × Nat) : Chk Unit :=
  match l.find? (fun a => !(f a).1) with
  | some a => .error (f a).2
  | none => .ok ()

/-! ### The envelope (R579-R582) -/

/-- A section: TYPE, OFFSET, LENGTH, and where its directory entry lies. -/
structure Sect where
  typ : Nat
  off : Nat
  len : Nat
  ent : Nat
deriving DecidableEq, Repr

/-- SIGNER of an image. -/
def imgSigner (img : Bytes) : Nat := field img 34 1 % 16

/-- INDEX of an image. -/
def imgIndex (img : Bytes) : Nat := field img 7 1 % 16

/-- SVN of an image. -/
def imgSvn (img : Bytes) : Nat := field img 12 4

/-- The section directory. -/
def imgSects (img : Bytes) : List Sect :=
  (List.range (field img 32 2)).map (fun k =>
    { typ := field img (128 + 16 * k) 1, off := field img (128 + 16 * k + 4) 4, len := field img (128 + 16 * k + 8) 4, ent := 128 + 16 * k })

/-- D, the digest and measurement of an image (R580). -/
def imgDigest (img : Bytes) : Bytes := sha3 (img.take (img.length - 4672))

/-- The signature of an image. -/
def imgSig (img : Bytes) : Bytes := (img.drop (img.length - 4672)).take 4627

/-- Bytes [off, off + n) are zero. -/
def zeroAt (img : Bytes) (off n : Nat) : Bool := ((img.drop off).take n).all (fun b => b == 0)

/-- Largest LENGTH of a kind (R581). -/
def kindMax (kind : Nat) : Nat :=
  match kind with
  | 1 => 16 * 2 ^ 20 | 2 => 4 * 2 ^ 20 | 3 => 64 * 2 ^ 20 | 4 => 16 * 2 ^ 20 | _ => 2 ^ 20

/-- SIGNER values allowed for a kind (R581). -/
def kindSigner (kind s : Nat) : Bool :=
  match kind with
  | 2 => s < 4 || s == 8
  | 3 => s == 9
  | _ => s < 4

/-- The section types of a kind, each as often as the kind carries it (R582). -/
def kindSects (img : Bytes) (kind : Nat) (types : List Nat) : Bool :=
  let n (t : Nat) : Nat := types.count t
  match kind with
  | 1 => types.length == 8 && (List.range 8).all (fun t => n (t + 1) == 1)
  | 2 =>
    let key : Nat := if imgSigner img = 8 then 1 else 0
    n 3 == 1 && decide (n 5 ≤ 1) && n 0x0E == key && types.length == n 3 + n 5 + n 0x0E
  | 5 => types == [9]
  | _ => types == [0x0F]

/-- The section of a type. -/
def imgSect (img : Bytes) (typ : Nat) : Option Sect := (imgSects img).find? (fun s => s.typ == typ)

/-- CSV of a Chamber in the floor record (R603). -/
def Dev.csv (d : Dev) (c : Nat) : Nat := field d.led.floor (44 + 2 * c) 2

/-- The SVN floor of an image (R581, R617). -/
def Dev.floorOf (d : Dev) (img : Bytes) (kind : Nat) : Nat :=
  match kind with
  | 1 => d.rf .SEC_FLOOR_BSV
  | 2 => d.csv (imgIndex img)
  | 3 => d.rf .SEC_FLOOR_FSV
  | 4 => d.rf .SEC_FLOOR_LSV
  | _ => 0

/-- The signature of an image verifies under the key that SIGNER names (R580, R581, R600, R602). -/
def Dev.sigOk (d : Dev) (img : Bytes) : Bool :=
  let s := imgSigner img
  let dig := imgDigest img
  if s < 4 then bit (Config.ownerValid d.led.owner) s && Config.mlDsa (Config.ownerKey d.led.owner s) dig (imgSig img)
  else if s = 8 then
    match imgSect img 0x0E, kget d.act.delegates (imgIndex img) with
    | some k, some want =>
      let key := (img.drop k.off).take 2592
      k.len == 2592 && sha3 key == want && Config.mlDsa key dig (imgSig img)
    | _, _ => false
  else Config.mlDsa Config.firmwareKey dig (imgSig img)

/-- The directory: types, alignment, order and bounds of the sections (R579). -/
def sectsOk (img : Bytes) : Chk Unit := do
  let ss := imgSects img
  let stop := img.length - 4672
  needAll ss (fun s => (zeroAt img (s.ent + 1) 3 && zeroAt img (s.ent + 12) 4, 7, s.ent))
  needAll ss (fun s => (s.off % 64 == 0 && decide (128 + 16 * ss.length ≤ s.off) && decide (s.off + s.len ≤ stop), 7, s.ent))
  needAll ss (fun s => (ss.all (fun t => t.ent == s.ent || decide (t.off + t.len ≤ s.off) || decide (s.off + s.len ≤ t.off)), 7, s.ent))

/-- The envelope, BIND, floor and signature of an image that should be of a kind and index (R579-R582, R585). -/
def Dev.envelope (d : Dev) (img : Bytes) (kind index : Nat) : Chk Unit := do
  need (decide (4800 ≤ img.length)) 2 8
  need (field img 0 4 == 0x7240B0DE) 2 0
  need (field img 4 2 == 1) 2 4
  need (field img 6 1 == kind) 2 6
  need (field img 7 1 == index) 2 7
  need (field img 8 4 == img.length && img.length % 64 == 0 && decide (img.length ≤ kindMax kind)) 2 8
  need (decide (1 ≤ field img 32 2 ∧ field img 32 2 ≤ 16)) 2 32
  need (kindSigner kind (field img 34 1)) 2 34
  need (zeroAt img 35 29) 2 35
  sectsOk img
  need (kindSects img kind ((imgSects img).map Sect.typ)) 7 128
  need (zeroAt img (img.length - 45) 45) 2 (img.length - 45)
  need (zeroAt img 16 16 || field img 16 16 == d.rf .SEC_SERIAL_SERIAL) 5 16
  need (decide (d.floorOf img kind ≤ imgSvn img)) 4 12
  need (d.sigOk img) 3 (img.length - 4672)

/-! ### Records (R583, R584) -/

/-- A record: its section's type, where it lies, OFFSET, KIND, MASKED and its words. -/
structure BRec where
  sect : Nat
  pos : Nat
  off : Nat
  kind : Nat
  masked : Bool
  words : List Nat
deriving DecidableEq, Repr

/-- The records of a section from `pos` up to `stop` (R583). -/
def recsFrom (img : Bytes) (sect stop : Nat) : Nat → Nat → Chk (List BRec)
  | 0, _ => .ok []
  | fuel + 1, pos =>
    if pos = stop then .ok []
    else
      let n := field img (pos + 6) 2
      if stop < pos + 8 then .error (7, pos)
      else if n = 0 ∨ 4096 < n ∨ stop < pos + 8 + 8 * n then .error (7, pos + 6)
      else do
        let rest ← recsFrom img sect stop fuel (pos + 8 + 8 * n)
        return { sect := sect, pos := pos, off := field img pos 4, kind := field img (pos + 4) 1, masked := bit (field img (pos + 5) 1) 0,
                 words := (List.range n).map (fun k => field img (pos + 8 + 8 * k) 8) } :: rest

/-- The record kinds of a section, REG aside (R584). -/
def sectKinds (sect : Nat) : List Nat :=
  match sect with
  | 1 => [0, 1] | 2 => [0, 4] | 3 => [0, 2, 5] | 5 => [0, 3] | 8 => [6] | 9 => [7] | _ => [0]

/-- The words that a record of a kind has (R583). -/
def kindWords (r : BRec) : Bool :=
  match r.kind with
  | 0 => !r.masked || r.words.length % 2 == 0
  | 2 => r.words.length == 2
  | 5 => r.words.length == 13
  | 6 => r.words.length == 9
  | _ => true

/-- Every record of an image, in image order. -/
def imgRecs (img : Bytes) : Chk (List BRec) := do
  let ss := (imgSects img).filter (fun s => decide (s.typ ≤ 9))
  let rs ← ss.foldlM (fun (acc : List BRec) s => do
    let l ← recsFrom img s.typ (s.off + s.len) (s.len + 1) s.off
    return acc ++ l) []
  needAll rs (fun r => ((sectKinds r.sect).contains r.kind && kindWords r, 7, r.pos))
  return rs

/-- The words of a REG record: offset in control space, value, mask, and place in the image (R583). -/
def BRec.puts (r : BRec) : List (Nat × Nat × Nat × Nat) :=
  if r.masked then
    (List.range (r.words.length / 2)).map (fun k =>
      (r.off + 8 * k, r.words.getD (2 * k) 0, r.words.getD (2 * k + 1) 0, r.pos + 8 + 16 * k))
  else (List.range r.words.length).map (fun k => (r.off + 8 * k, r.words.getD k 0, 2 ^ 64 - 1, r.pos + 8 + 8 * k))

/-- A field that a REG record of a section may write (R584). -/
def regTarget (sect : Nat) (f : Fld) : Bool :=
  let r := f.info.reg
  match sect with
  | 1 => [Reg.XLT_DEVNUM, .XLT_T0_CFG, .XLT_CNT_CFG, .MRT_RSV_TMO, .MRT_RECALL_TMO, .MRT_REQ_TMO, .MSN_BRICK_TMO, .HRD_HOFF_TMO,
          .TIE_WEAR_CFG, .TIE_CART_TMO, .TBL_HOT_CFG, .ERR_BG_CFG, .ERR_TLM_CFG].contains r
  | 2 => [Reg.HUB_FP_LTHR, .DIR_CFG].contains r || [Fld.HUB_FP_CFG_SPARE_EN, .MSN_CO_CFG_SPARE_EN, .MSN_CO_CFG_SPARE_FOR].contains f
  | 3 => [Reg.CHM_CFG, .CHM_OPS, .CHM_DRAIN_TMO, .CHM_OP_TMO, .HUB_LSHARE, .HUB_DSHARE, .TIE_CHM_QUOTA, .XLT_FQ_BASE, .XLT_HOT_BASE,
          .HRD_CFG, .HRD_IDX, .HRD_POOL, .GAL_CFG, .TBL_TIME, .TBL_HOT_BASE, .NET_WCACHE, .NET_PTL_CFG].contains r || f == .MSN_CO_CFG_SLOTS
  | 4 => [Reg.HUB_EGR_WT, .XLT_HDM_MAP, .NET_EP_CFG, .NET_DSCP_MAP, .NET_ADDR_CFG, .NET_ADDR_IP, .NET_PTL_DEV, .NET_CC,
          .NET_PTP_CFG].contains r || [Fld.HUB_FP_CFG_MODE, .HUB_FP_CFG_PEER, .HUB_FP_CFG_CHAMBERS].contains f
  | 5 => r == .TIE_POOL_CFG
  | 6 => [Reg.CLK_STS, .CLK_ACLK_THR, .PWR_POLICY, .PWR_WAKE_CFG, .PWR_CMD, .PWR_STS, .PWR_RST, .PWR_DOM_STS].contains r
  | 7 => [Reg.TLY_CFG, .TLY_EXPEL_MAX, .TLY_WEIGHT, .TLY_STS, .TLY_CMD, .TLY_PEERS, .TLY_DEV].contains r
  | _ => false

/-- The instance belongs to a Chamber: its own region, its Hub shares (R584, R594). MSN_CO_CFG is judged by what it changes. -/
def regOf (r : Reg) (i c : Nat) : Bool :=
  match r with
  | .HUB_LSHARE => i / 8 == c
  | .HUB_DSHARE => i == c
  | .MSN_CO_CFG => true
  | .TIE_POOL_CFG => false
  | _ => r.ofChamber && r.info.dims.length == 1 && i == c

/-- The mask covers a bit of the field, in the word at byte `b` of the register. -/
def maskHits (f : Fld) (b mask : Nat) : Bool := f.of (mask * 2 ^ (8 * b)) != 0

/-- A field that a REG record of a section may write, in a Bond or in the Chamber Bond of a Chamber: there the CHAMBERS section may set a
Course's spare too (R584, 09 R384, DEDUCED, log 72). -/
def putTarget (sect : Nat) (own : Option Nat) (f : Fld) : Bool :=
  regTarget sect f || (own.isSome && sect == 3 && (f == .MSN_CO_CFG_SPARE_EN || f == .MSN_CO_CFG_SPARE_FOR))

/-- A word of a REG record has a target that its section allows (R584); `own` is the Chamber of a Chamber Bond. -/
def putOk (sect : Nat) (own : Option Nat) (p : Nat × Nat × Nat × Nat) : Bool :=
  p.1 % 8 == 0 &&
  match locate p.1 with
  | none => false
  | some (r, i, b) =>
    r.fields.any (putTarget sect own) &&
      r.fields.all (fun f => f.info.ty == .ro || !maskHits f b p.2.2.1 || putTarget sect own f) &&
      (match own with | some c => regOf r i c | none => true)

/-- A word written by a REG record (R583): each field takes the mask's bits; RW1C bits written 1 clear; bits of WO fields start nothing. -/
def Dev.regPut (d : Dev) (p : Nat × Nat × Nat × Nat) : Dev :=
  match locate p.1 with
  | none => d
  | some (r, i, b) =>
    r.fields.foldl (fun d f =>
      let m := f.of (p.2.2.1 * 2 ^ (8 * b))
      let x := Nat.land (f.of (p.2.1 * 2 ^ (8 * b))) m
      let old := d.rf f i
      match f.info.ty with
      | .rw | .rwl => if m = 0 then d else d.wf f i (old - Nat.land old m + x)
      | .rw1c => if m = 0 then d else d.wf f i (old - Nat.land old x)
      | _ => d) d

/-! ### Ranges of single fields -/

/-- The lowest and highest value that the Bond loader takes in a field; `none` where every value is taken (02 R67, 03 R123, R126, R129,
04 R170, 06 R249-R254, 07 R293, R294, R298, 08 R340, 09 R389, 11 R459, R460, R465, 12 R510, R511, 13 R542, 14 R570, R574, R575, 16 R648, R650,
17 R680, 18 R710, R711). -/
def Fld.range (f : Fld) : Option (Nat × Nat) :=
  match f with
  | .XLT_T0_CFG_AFF => some (0, 1151)
  | .HUB_FP_CFG_MODE => some (0, 2)
  | .HUB_FP_LTHR_LIMIT => some (16, 65535)
  | .HUB_EGR_WT_TC3 | .HUB_EGR_WT_TC4 | .HUB_EGR_WT_TC5 | .HUB_EGR_WT_TC6 | .HUB_EGR_WT_TC7 => some (1, 255)
  | .MRT_RSV_TMO_TMO => some (2, 1000)
  | .MRT_RECALL_TMO_TMO => some (50, 100000)
  | .MRT_REQ_TMO_TMO => some (2050, 1000000)
  | .CHM_CFG_CAP => some (0, 64)
  | .CHM_CFG_WEIGHT => some (1, 255)
  | .CHM_OPS_MAX => some (1, 16384)
  | .CHM_DRAIN_TMO_TMO => some (1, 1000)
  | .TIE_POOL_CFG_PIN_MAX => some (0, 100)
  | .TIE_POOL_CFG_STAGE_EXT => some (0, 1024)
  | .TIE_POOL_CFG_PROMO_EXT => some (0, 512)
  | .TIE_CHM_QUOTA_SMAX | .TIE_CHM_QUOTA_PMAX => some (1, 65535)
  | .TIE_CHM_QUOTA_SMIN => some (0, 1024)
  | .TIE_CHM_QUOTA_PMIN => some (0, 512)
  | .TIE_WEAR_CFG_WARN => some (50, 99)
  | .TIE_WEAR_CFG_LIMIT => some (51, 100)
  | .TIE_CART_TMO_TMO => some (10, 2000)
  | .XLT_CNT_CFG_DECAY => some (1000, 60000000)
  | .XLT_CNT_CFG_THRESH => some (1, 2 ^ 64)
  | .MSN_BRICK_TMO_TMO => some (100, 1000000)
  | .HRD_CFG_WAIT | .GAL_CFG_WAIT => some (0, 10000)
  | .HRD_CFG_PIN_MAX => some (0, 100)
  | .HRD_CFG_MCOUNT | .GAL_CFG_MCOUNT => some (0, 128)
  | .HRD_CFG_MFIRST | .GAL_CFG_MFIRST => some (0, 127)
  | .HRD_IDX_SIZE_LOG2 => some (10, 20)
  | .HRD_HOFF_TMO_TMO => some (5, 2000)
  | .TBL_TIME_MOVE_TMO => some (1, 1000)
  | .TBL_TIME_MOVE_GRACE => some (100, 100000)
  | .TBL_TIME_PUB_TMO => some (10, 10000)
  | .TBL_TIME_GRACE => some (1, 10000)
  | .TBL_HOT_CFG_DECAY => some (10, 60000)
  | .TBL_HOT_CFG_THRESH => some (1, 2 ^ 64)
  | .TBL_HOT_CFG_SAMPLE_LOG2 => some (0, 10)
  | .NET_EP_CFG_MAXFRAME => some (1518, 9216)
  | .NET_EP_CFG_MODE => some (0, 2)
  | .NET_DSCP_MAP_TC => some (3, 7)
  | .NET_PTL_CFG_MAXOPS => some (1, 4095)
  | .NET_PTL_DEV_PORT => some (1024, 65535)
  | .NET_PTL_DEV_DEDUP => some (0, 10000)
  | .NET_PTP_CFG_MAXSLEW => some (1, 1000)
  | .NET_CC_CNP_GAP => some (1, 1000)
  | .NET_CC_INC_TIME => some (1, 10000)
  | .NET_CC_INC_STEP => some (1, 4095)
  | .NET_CC_DEC => some (1, 4)
  | .NET_CC_MIN => some (1, 8000)
  | .ERR_BG_CFG_DEFER => some (10, 10000)
  | .ERR_TLM_CFG_PERIOD => some (100, 1000000)
  | .TLY_CFG_THRESH => some (1, 254)
  | .TLY_CFG_VOTES => some (2, 8)
  | .TLY_CFG_DECAY => some (2, 12)
  | .TLY_EXPEL_MAX_MAX => some (0, 16)
  | .CLK_ACLK_THR_KEEP => some (10, 19)
  | .PWR_POLICY_SHADE_IDLE => some (16, 65535)
  | _ => none

/-- A value lies in the field's range. -/
def fldOk (f : Fld) (v : Nat) : Bool := match f.range with | some (lo, hi) => decide (lo ≤ v ∧ v ≤ hi) | none => true

/-! ### The plan of an image -/

/-- What the records of an image say: registers as they leave them, REG words (register, instance, place), agents and those of them that are CXL hosts, units (Chamber, ENABLE,
gather units, Gallery units, place), keys (Chamber, 1 + KEYID, DELEGATE, place), extents (extent, Chamber, AFFINE, place), spares (CLASS, A, B, place),
references (0 firmware or 1 library, index, roles, D, place), FAIL marks (class, unit). -/
structure Plan where
  regs : Map Nat
  words : List (Reg × Nat × Nat)
  agents : List Nat
  hosts : List Nat
  units : List (Nat × Bool × Nat × Nat × Nat)
  keys : List (Nat × Nat × Bytes × Nat)
  exts : List (Nat × Nat × Bool × Nat)
  spares : List (Nat × Nat × Nat × Nat)
  refs : List (Nat × Nat × Nat × Bytes × Nat)
  fails : List (Nat × Nat)
deriving DecidableEq, Repr

/-- The word `k` of a record, and its place. -/
def BRec.each {α : Type} (rs : List BRec) (kind : Nat) (f : Nat → Nat → α) : List α :=
  (rs.filter (fun r => r.kind == kind)).flatMap (fun r =>
    (List.range r.words.length).map (fun k => f (r.words.getD k 0) (r.pos + 8 + 8 * k)))

/-- Words of a record as bytes. -/
def wordBytes (ws : List Nat) : Bytes := ws.flatMap (leBytes 8)

/-- The records of an image gathered, over the registers of `d` (R583). -/
def Dev.planOf (d : Dev) (rs : List BRec) : Plan :=
  let regs := rs.filter (fun r => r.kind == 0)
  let puts := regs.flatMap BRec.puts
  let w (r : BRec) (k : Nat) : Nat := r.words.getD k 0
  { regs := (puts.foldl (fun d p => d.regPut p) d).regs
    words := puts.filterMap (fun p => (locate p.1).map (fun a => (a.1, a.2.1, p.2.2.2)))
    agents := BRec.each rs 1 (fun v _ => v % 2 ^ 16)
    hosts := (BRec.each rs 1 (fun v _ => (v % 2 ^ 16, bit v 16))).filterMap (fun x => if x.2 then some x.1 else none)
    units := (rs.filter (fun r => r.kind == 2)).map (fun r =>
      (w r 0 % 16, bit (w r 0) 4, w r 1 % 2 ^ 32, bits (w r 1) 32 16, r.pos))
    keys := (rs.filter (fun r => r.kind == 5)).map (fun r =>
      (w r 0 % 16, 1 + ofLE (wordBytes ((r.words.drop 1).take 4)), wordBytes ((r.words.drop 5).take 8), r.pos))
    exts := BRec.each rs 3 (fun v at_ => (v % 2 ^ 20, bits v 20 4, bit v 24, at_))
    spares := BRec.each rs 4 (fun v at_ => (v % 16, bits v 4 8, bits v 12 8, at_))
    refs := (rs.filter (fun r => r.kind == 6)).map (fun r =>
      (w r 0 % 16, bits (w r 0) 4 4, bits (w r 0) 8 2, wordBytes (r.words.drop 1), r.pos))
    fails := BRec.each rs 7 (fun v _ => (v % 16, bits v 4 16)) }

/-- The place in the image of the last word written to a register instance; 0 when there is none. -/
def Plan.place (p : Plan) (r : Reg) (i : Nat) : Nat :=
  match p.words.reverse.find? (fun w => w.1 == r && w.2.1 == i) with | some w => w.2.2 | none => 0

/-! ### Checks of the configuration as a whole -/

/-- Sum over a list. -/
def sumOf {α : Type} (l : List α) (f : α → Nat) : Nat := (l.map f).sum

/-- Fields written lie in their ranges. -/
def Dev.rangesOk (d : Dev) (p : Plan) : Chk Unit :=
  needAll p.words (fun w => (w.1.fields.all (fun f => fldOk f (d.rf f w.2.1)), 8, w.2.2))

/-- Rules over device registers (02 R75, R78, 03 R87, 04 R170, 07 R298, 14 R548, R554). -/
def Dev.deviceRules (d : Dev) (p : Plan) : Chk Unit := do
  need (decide (d.rf .MRT_RECALL_TMO_TMO + 2000 ≤ d.rf .MRT_REQ_TMO_TMO)) 8 (p.place .MRT_REQ_TMO 0)
  needAll (List.range 16) (fun q => (!d.rb .HUB_FP_CFG_PEER q || d.rf .HUB_FP_CFG_MODE q == 1, 8, p.place .HUB_FP_CFG q))
  needAll (List.range 128) (fun i =>
    (!d.rb .XLT_HDM_MAP_VALID i || decide (1 ≤ d.rf .XLT_HDM_MAP_SIZE i ∧ d.rf .XLT_HDM_MAP_CVA_BASE i + d.rf .XLT_HDM_MAP_SIZE i ≤ 2 ^ 24), 8,
     p.place .XLT_HDM_MAP i))
  need (decide (d.rf .TIE_WEAR_CFG_WARN < d.rf .TIE_WEAR_CFG_LIMIT)) 8 (p.place .TIE_WEAR_CFG 0)
  needAll (List.range 64) (fun i =>
    (!d.rb .NET_ADDR_CFG_EN i ||
      (List.range i).all (fun j => !d.rb .NET_ADDR_CFG_EN j || d.rf .NET_ADDR_IP_ADDR i != d.rf .NET_ADDR_IP_ADDR j ||
        d.rb .NET_ADDR_CFG_VLAN_EN i != d.rb .NET_ADDR_CFG_VLAN_EN j || d.rf .NET_ADDR_CFG_VLAN i != d.rf .NET_ADDR_CFG_VLAN j),
     9, p.place .NET_ADDR_CFG i))
  needAll ((List.range 1024).filter (fun k => d.rb .NET_WIN_EN k)) (fun k =>
    let e := d.rf .NET_QP_ADDR (d.rf .NET_WIN_QP k)
    (d.rf .NET_ADDR_CFG_CHAMBER e == k / 64, 8, p.place .NET_ADDR_CFG e))

/-- The shares of the Hub (03 R115): their cells together; 64 cells at least in each lossless share of an enabled Chamber and of the device;
RSP of each share, but for one that is all 0 (DESIGN CHOICE, log 70). -/
def Dev.shareRules (d : Dev) (p : Plan) (enabled : List Nat) : Chk Unit := do
  let ls := (List.range 17).flatMap (fun s => (List.range 6).map (fun c => s * 8 + c))
  let size (i : Nat) : Nat := 4 * d.rf .HUB_LSHARE_SIZE i
  need (decide (sumOf ls size + sumOf (List.range 17) (fun s => 4 * d.rf .HUB_DSHARE_SIZE s) ≤ 262144)) 8 (p.place .HUB_LSHARE 0)
  needAll ls (fun i => (!(enabled.contains (i / 8) || i / 8 == 16) || decide (64 ≤ size i), 8, p.place .HUB_LSHARE i))
  needAll ls (fun i => ((d.rf .HUB_LSHARE_SIZE i == 0 && d.rf .HUB_LSHARE_RSP i == 0) || decide (16 ≤ d.rf .HUB_LSHARE_RSP i ∧ d.rf .HUB_LSHARE_RSP i ≤ size i), 8, p.place .HUB_LSHARE i))

/-- Quotas of operations and of frames, over all Chambers (06 R250, 07 R294). -/
def Dev.quotaRules (d : Dev) (p : Plan) : Chk Unit := do
  needAll (List.range 16) (fun c => (decide (d.rf .CHM_OPS_MIN c ≤ d.rf .CHM_OPS_MAX c), 8, p.place .CHM_OPS c))
  need (decide (sumOf (List.range 16) (fun c => d.rf .CHM_OPS_MIN c) ≤ 16384)) 8 (p.place .CHM_OPS 0)
  needAll (List.range 16) (fun c => (decide (d.rf .TIE_CHM_QUOTA_PMIN c ≤ d.rf .TIE_CHM_QUOTA_PMAX c) &&
    decide (d.rf .TIE_CHM_QUOTA_SMIN c ≤ d.rf .TIE_CHM_QUOTA_SMAX c), 8, p.place .TIE_CHM_QUOTA c))
  need (decide (sumOf (List.range 16) (fun c => d.rf .TIE_CHM_QUOTA_PMIN c) ≤ d.rf .TIE_POOL_CFG_PROMO_EXT)) 8 (p.place .TIE_CHM_QUOTA 0)
  need (decide (sumOf (List.range 16) (fun c => d.rf .TIE_CHM_QUOTA_SMIN c) ≤ d.rf .TIE_POOL_CFG_STAGE_EXT)) 8 (p.place .TIE_CHM_QUOTA 0)

/-- The T0 extent at a local offset will be OPEN and owned by a Chamber: it is so now, or it is in the state in which this load gives the
extents that its records name to their Chambers, and is named (R595, 02 R58, 08 R316, R332). -/
def Dev.openFor (d : Dev) (p : Plan) (from_ : Option ExtState) (off c : Nat) : Bool :=
  let n := off / 2 ^ 28
  let e := d.extent n
  extKind n == .t0 && !d.inPool n &&
    ((e.st == .open_ && e.chamber == c) || (from_ == some e.st && p.exts.any (fun x => x.1 == n && x.2.1 == c)))

/-- Places in memory: fault queues, hot rings, Hoard indexes, each aligned to its size (08 R316, R332, 11 R433, R460, 12 R502, R513). -/
def Dev.placeRules (d : Dev) (p : Plan) (from_ : Option ExtState) (cs : List Nat) : Chk Unit := do
  needAll cs (fun c => (d.openFor p from_ (d.rf .XLT_FQ_BASE_OFFSET c * 2 ^ 17) c, 8, p.place .XLT_FQ_BASE c))
  needAll cs (fun c => (!d.rb .XLT_HOT_BASE_EN c || d.openFor p from_ (d.rf .XLT_HOT_BASE_OFFSET c * 2 ^ 18) c, 8, p.place .XLT_HOT_BASE c))
  needAll cs (fun c => (!d.rb .TBL_HOT_BASE_EN c || d.openFor p from_ (d.rf .TBL_HOT_BASE_OFFSET c * 2 ^ 17) c, 8, p.place .TBL_HOT_BASE c))
  needAll cs (fun c =>
    let off := d.rf .HRD_IDX_OFFSET c * 2 ^ 16
    let size := 64 * 2 ^ d.rf .HRD_IDX_SIZE_LOG2 c
    (!d.rb .HRD_IDX_EN c || (d.openFor p from_ off c && off % size == 0 && decide (off % 2 ^ 28 + size ≤ 2 ^ 28)), 8, p.place .HRD_IDX c))

/-- Attend and re-rank Masons exist, and the roles are held (11 R459, 13 R542, R586). -/
def Dev.masonRules (d : Dev) (p : Plan) (cs : List Nat) (roles : List Nat) : Chk Unit := do
  let n (c : Nat) : Nat := (d.logicalMasons c).length
  needAll cs (fun c => (d.rf .HRD_CFG_MCOUNT c == 0 || decide (d.rf .HRD_CFG_MFIRST c + d.rf .HRD_CFG_MCOUNT c ≤ n c), 8, p.place .HRD_CFG c))
  needAll cs (fun c => (d.rf .GAL_CFG_MCOUNT c == 0 || decide (d.rf .GAL_CFG_MFIRST c + d.rf .GAL_CFG_MCOUNT c ≤ n c), 8, p.place .GAL_CFG c))
  needAll cs (fun c => (d.rf .HRD_CFG_MCOUNT c == 0 || roles.any (fun x => bit x 0), 6, p.place .HRD_CFG c))
  needAll cs (fun c => (d.rf .GAL_CFG_MCOUNT c == 0 || roles.any (fun x => bit x 1), 6, p.place .GAL_CFG c))

/-- The stack group of a Course (02 R46, 19 R733). -/
def courseGroup (co : Nat) : Nat := if co ≤ 4 then 0 else if co ≤ 10 then 1 else 2

/-- An EXTENT record agrees with the affine zones (02 R47, 19 R733). -/
def Dev.affineOk (d : Dev) (n c : Nat) (affine : Bool) : Bool :=
  let aff := d.rf .XLT_T0_CFG_AFF
  if n < d.stripedExts then !affine
  else affine && (List.range 128).any (fun k => d.slotOwner (k / 8) (k % 8) == some c && courseGroup (k / 8) == (n - d.stripedExts) / aff)

/-- EXTENT records: backed T0 extents outside the frame pool, once each, for defined Chambers (07 R264, R583, R586, R733). -/
def Dev.extRules (d : Dev) (p : Plan) (cs : List Nat) : Chk Unit := do
  needAll p.exts (fun e => (extKind e.1 == .t0 && decide (e.1 < 3456) && cs.contains e.2.1, 8, e.2.2.2))
  needAll p.exts (fun e => ((p.exts.filter (fun x => x.1 == e.1)).length == 1 && !d.inPool e.1, 9, e.2.2.2))
  needAll p.exts (fun e => (d.affineOk e.1 e.2.1 e.2.2.1, 8, e.2.2.2))

/-- A unit that the repair map marks failed (R597). -/
def Dev.failed (d : Dev) (cls unit : Nat) : Bool := d.led.fails.contains (cls, unit)

/-- Units: each once, and none failed (R586, R597, 09 R384). `all` are the units of every Chamber. -/
def Dev.unitRules (d : Dev) (p : Plan) (all : Map (Nat × Nat)) : Chk Unit := do
  needAll p.units (fun u => ((p.units.filter (fun x => x.1 == u.1)).length == 1, 9, u.2.2.2.2))
  needAll p.units (fun u =>
    (all.all (fun e => e.1 == u.1 || (Nat.land e.2.1 u.2.2.1 == 0 && Nat.land e.2.2 u.2.2.2.1 == 0)), 9, u.2.2.2.2))
  needAll p.units (fun u =>
    (!(List.range 32).any (fun i => bit u.2.2.1 i && d.failed 6 i) && !(List.range 16).any (fun i => bit u.2.2.2.1 i && d.failed 5 i),
     0xC, u.2.2.2.2))
  needAll (List.range 128) (fun k =>
    ((d.slotOwner (k / 8) (k % 8)).isNone || !d.failed 0 (d.slotMason (k / 8) (k % 8)), 0xC, p.place .MSN_CO_CFG (k / 8)))
  needAll (List.range 16) (fun co => (!d.rb .MSN_CO_CFG_SPARE_EN co || !d.failed 0 (9 * co + 8), 0xC, p.place .MSN_CO_CFG co))

/-- Keys: defined Chambers, once each, all different (R586). `old` are the keys of Chambers that the image leaves alone. -/
def keyRules (p : Plan) (old : List Nat) : Chk Unit := do
  needAll p.keys (fun k => ((p.keys.filter (fun x => x.1 == k.1 || x.2.1 == k.2.1)).length == 1, 9, k.2.2.2))
  needAll p.keys (fun k => (!old.contains k.2.1, 9, k.2.2.2))

/-- Spares: four service cores, eight positions held by eight slots, Hub port 39 once at most (02 R54, 03 R106, R583, R586, R597). -/
def Dev.spareRules (d : Dev) (p : Plan) (sect : Nat) : Chk Unit := do
  let of (cls : Nat) : List (Nat × Nat × Nat × Nat) := p.spares.filter (fun s => s.1 == cls)
  needAll p.spares (fun s => (
    (match s.1 with
     | 0 => decide (s.2.1 ≤ 8 ∧ s.2.2.1 ≤ 3)
     | 1 => decide (s.2.1 < 39)
     | 2 => decide (s.2.1 < 8 ∧ s.2.2.1 < 9)
     | _ => false), 7, s.2.2.2))
  need (((of 0).map (fun s => (s.2.1, s.2.2.1))).eraseDups.length == 4 && (of 0).length == 4) 7 sect
  need ((of 2).length == 8 && ((of 2).map (fun s => s.2.1)).eraseDups.length == 8 && ((of 2).map (fun s => s.2.2.1)).eraseDups.length == 8) 7 sect
  need (decide ((of 1).length ≤ 1)) 9 sect
  needAll (of 0) (fun s => (!d.failed 1 (4 * s.2.1 + s.2.2.1), 0xC, s.2.2.2))
  needAll (of 1) (fun s => (!d.failed 4 39, 0xC, s.2.2.2))

/-- The stored image of a digest: of a firmware slot or of a slot of a library index. -/
def Dev.storedImage (d : Dev) (lib idx : Nat) (dig : Bytes) : Option Bytes :=
  let slots : List (Option Bytes) :=
    if lib = 0 then [kget d.led.firmware 0, kget d.led.firmware 1] else [kget d.led.libraries (2 * idx), kget d.led.libraries (2 * idx + 1)]
  (slots.filterMap (fun x => x)).find? (fun img => imgDigest img == dig)

/-- References: one firmware, libraries 0 to 7 once each, each stored, signed and not below its floor (R586, R587, R607). -/
def Dev.refRules (d : Dev) (p : Plan) (sect : Nat) : Chk Unit := do
  need ((p.refs.filter (fun r => r.1 == 0)).length == 1) 6 sect
  needAll p.refs (fun r => (decide (r.1 ≤ 1 ∧ r.2.1 < 8) && (p.refs.filter (fun x => x.1 == r.1 && x.2.1 == r.2.1)).length == 1, 7, r.2.2.2.2))
  needAll p.refs (fun r =>
    (match d.storedImage r.1 r.2.1 r.2.2.2.1 with
     | some img => d.sigOk img && decide (d.floorOf img (3 + r.1) ≤ imgSvn img)
     | none => false, 6, r.2.2.2.2))

/-- The place of a section of the image. -/
def sectPlace (img : Bytes) (typ : Nat) : Nat := match imgSect img typ with | some s => s.off | none => 0

/-- The RWL fields return to their Reset values (19 R728). -/
def Dev.rwlReset (d : Dev) : Dev :=
  let locked := (allFlds.filter (fun f => f.info.ty == .rwl)).map (fun f => f.ctorIdx)
  { d with regs := d.regs.filter (fun e => !locked.contains (e.1 % 1024)) }

/-- Every check of a Bond (R585, R586): the plan of its records over registers whose RWL fields are reset, or the first failure. -/
def Dev.checkBond (d : Dev) (img : Bytes) : Chk Plan := do
  d.envelope img 1 0
  let rs ← imgRecs img
  needAll ((rs.filter (fun r => r.kind == 0)).flatMap (fun r => r.puts.map (fun q => (r.sect, q))))
    (fun q => (putOk q.1 none q.2, 7, q.2.2.2.2))
  let base := d.rwlReset
  let p := base.planOf rs
  let n := { base with regs := p.regs }
  let cs := p.units.map (fun u => u.1)
  let all : Map (Nat × Nat) := p.units.map (fun u => (u.1, u.2.2.1, u.2.2.2.1))
  need (decide (p.agents.length ≤ 4096)) 8 (sectPlace img 1)
  n.rangesOk p
  n.deviceRules p
  n.shareRules p ((p.units.filter (fun u => u.2.1)).map (fun u => u.1))
  n.quotaRules p
  n.placeRules p (some .absent) cs
  n.masonRules p cs (p.refs.map (fun r => if r.1 = 1 then r.2.2.1 else 0))
  n.extRules p cs
  n.unitRules p all
  keyRules p []
  n.spareRules p (sectPlace img 2)
  n.refRules p (sectPlace img 8)
  return p

/-- A Chamber Bond's MSN_CO_CFG changes only slots that are its own or unassigned (R594). -/
def Dev.slotsOwn (old new : Dev) (c : Nat) : Bool :=
  (List.range 128).all (fun k =>
    let a := old.slotOwner (k / 8) (k % 8)
    let b := new.slotOwner (k / 8) (k % 8)
    a == b || ((a == none || a == some c) && (b == none || b == some c)))

/-- A Course's spare serves a slot: its owner, when the spare is enabled (09 R384). -/
def Dev.spareServes (d : Dev) (co : Nat) : Option Nat := if d.rb .MSN_CO_CFG_SPARE_EN co then d.slotOwner co (d.rf .MSN_CO_CFG_SPARE_FOR co) else none

/-- A Chamber Bond changes a Course's spare only where the slots that it serves and served are its own (09 R384, R594, DEDUCED, log 72). -/
def Dev.sparesOwn (old new : Dev) (c : Nat) : Bool :=
  (List.range 16).all (fun co =>
    (old.rf .MSN_CO_CFG_SPARE_EN co == new.rf .MSN_CO_CFG_SPARE_EN co && old.rf .MSN_CO_CFG_SPARE_FOR co == new.rf .MSN_CO_CFG_SPARE_FOR co) ||
      ((old.spareServes co).all (fun x => x == c) && (new.spareServes co).all (fun x => x == c)))

/-- Every check of a Chamber Bond of Chamber `c`, against the active Bond as it would amend it (R585, R586, R594). `again` marks the entry
applied anew at step 7 of R591, whose EXTENT records are not judged by the extents' present states; `applied` says whether those records take
effect. -/
def Dev.checkChb (d : Dev) (img : Bytes) (c : Nat) (again applied : Bool) : Chk Plan := do
  d.envelope img 2 c
  let rs ← imgRecs img
  needAll ((rs.filter (fun r => r.kind == 0)).flatMap (fun r => r.puts.map (fun q => (r.sect, q))))
    (fun q => (putOk q.1 (some c) q.2, 7, q.2.2.2.2))
  let p := d.planOf rs
  let n := { d with regs := p.regs }
  let mine := d.chmState c != 0
  let others := d.unitsOf.filter (fun e => e.1 != c)
  let all : Map (Nat × Nat) := others ++ p.units.map (fun u => (u.1, u.2.2.1, u.2.2.2.1))
  needAll p.units (fun u => (u.1 == c, 7, u.2.2.2.2))
  needAll p.keys (fun k => (k.1 == c, 7, k.2.2.2))
  needAll p.keys (fun k =>
    (decide (imgSigner img < 4) || k.2.2.1 == (match kget d.act.delegates c with | some x => x | none => zeros 64), 7, k.2.2.2))
  need (mine || !p.units.isEmpty) 7 (sectPlace img 3)
  need (d.slotsOwn n c && d.sparesOwn n c) 9 (sectPlace img 3)
  n.rangesOk p
  n.shareRules p ((List.range 16).filter (fun x => d.chmState x == 1 || (x == c && p.units.any (fun u => u.2.1))))
  n.quotaRules p
  n.placeRules p (if applied then some .free else none) [c]
  n.masonRules p [c] (d.act.roles.map Prod.snd)
  n.extRules p [c]
  needAll p.exts (fun e => (again || (d.extent e.1).st == .free, 9, e.2.2.2))
  n.unitRules p all
  keyRules p ((d.chmKey.filter (fun e => e.1 != c)).map Prod.snd)
  return p

end Sys2Proof.Machine
end

