-- ==== Sys2Proof/Machine/Bond.lean ====
section
/-!
DEFINITION. The Bond: storing images, loading and activating the selected Bond, applying a Chamber Bond, attestation, the floor, and reads
of the journal (15 R587-R598, R602-R617, 18 R707, R708). A command of BND_CMD ends within its row; BUSY stands only while CHB_APPLY waits for
its Chamber's disable (log 56).
-/

namespace Sys2Proof.Machine

/-! ### BND_STS, BND_BUF, the Ledger -/

/-- A command ends with an error code and the offset of the first failure (R613). -/
def Dev.bErr (d : Dev) (code off : Nat) : Dev := (d.wf .BND_STS_ERR 0 code).wf .BND_STS_ERR_OFFSET 0 off

/-- The first `n` bytes of BND_BUF (R614). -/
def Dev.bufBytes (d : Dev) (n : Nat) : Bytes :=
  ((List.range ((n + 7) / 8)).flatMap (fun k => leBytes 8 (d.rf .BND_BUF_WORD k))).take n

/-- Bytes written into BND_BUF from its first byte; the rest stays. -/
def Dev.setBuf (d : Dev) (l : Bytes) : Dev :=
  let all := l ++ (d.bufBytes 8192).drop l.length
  (List.range ((l.length + 7) / 8)).foldl (fun d k => d.wf .BND_BUF_WORD k (field all (8 * k) 8)) d

/-- A journal record of this chapter, committed in the command that writes it (R588). -/
def Dev.jAppend (d : Dev) (typ id : Nat) (payload : Bytes) : Dev :=
  { d with led.journal := d.led.journal ++ [{ typ := typ, seq := d.led.jseq, id := id, payload := padTo 44 payload }],
           led.jseq := u32 (d.led.jseq + 1) }

/-- STATE of a power domain; a FAILED domain of the Engine group stays so (18 R701, R715). -/
def Dev.setDom (d : Dev) (k st : Nat) : Dev :=
  if d.rf .PWR_DOM_STS_STATE k = 5 ∧ k < 209 then d else d.wf .PWR_DOM_STS_STATE k st

/-! ### Storing (R589) -/

/-- OPEN (R589). -/
def Dev.bndOpen (d : Dev) (target index : Nat) : Dev :=
  if d.rb .BND_STS_BUSY then d.bErr 1 0
  else if d.led.store.isSome then d.bErr 0xB 0
  else if 6 < target ∨ (target = 3 ∧ 8 ≤ index) then d.bErr 8 0
  else { d with led.store := some { target := target, index := index, bytes := [] } }.bErr 0 0

/-- Bytes that a store of a target can take (R581, R602, R603). -/
def targetMax (target : Nat) : Nat :=
  match target with
  | 0 => kindMax 1 | 1 => kindMax 2 | 2 => kindMax 3 | 3 => kindMax 4 | 6 => kindMax 5 | _ => 2 ^ 20

/-- DATA (R589, R612). -/
def Dev.bndData (d : Dev) (n : Nat) : Dev :=
  if d.rb .BND_STS_BUSY then d.bErr 1 0
  else match d.led.store with
  | none => d.bErr 0xB 0
  | some s =>
    if n < 8 ∨ 8192 < n then d.bErr 8 0
    else if targetMax s.target < s.bytes.length + n then d.bErr 0xA 0
    else { d with led.store := some { s with bytes := s.bytes ++ d.bufBytes n } }.bErr 0 0

/-- ABANDON (R612). -/
def Dev.bndAbandon (d : Dev) : Dev :=
  if d.rb .BND_STS_BUSY then d.bErr 1 0
  else if d.led.store.isNone then d.bErr 0xB 0
  else { d with led.store := none }.bErr 0 0

/-- The store slot that the active Bond does not reference, of two (R589). -/
def unusedSlot (a : Option Bytes) (used : Bytes) : Nat :=
  match a with
  | some img => if imgDigest img = used then 1 else 0
  | none => 0

/-- SVN of the active image of a kind, when there is one (R604): 0 Bond, 1 firmware, 2 libraries, 3 + c Chamber Bond of Chamber c. -/
def Dev.activeSvn (d : Dev) (what : Nat) : Option Nat :=
  if !d.active then none
  else match what with
  | 0 => (([kget d.led.bonds 0, kget d.led.bonds 1].filterMap (fun x => x)).find? (fun i => imgDigest i == d.act.bond)).map imgSvn
  | 1 => (d.storedImage 0 0 d.act.firmware).map imgSvn
  | 2 => (d.act.libraries.filterMap (fun e => (d.storedImage 1 e.1 e.2).map imgSvn)).min?
  | n => (kget d.led.chbActive (n - 3)).map imgSvn

/-- A proposed floor value: not below the current one, not above the SVN of the active image (R604). -/
def svnFits (v cur : Nat) (cap : Option Nat) : Bool := decide (cur ≤ v) && (match cap with | some m => decide (v ≤ max m cur) | none => v == cur)

/-- The rules of R603 and R604 on the 128-byte body of a floor record. -/
def Dev.floorBody (d : Dev) (b : Bytes) : Chk Unit := do
  need (field b 0 4 == 0x7240F100 && zeroAt b 4 4 && zeroAt b 76 52) 2 0
  need (field b 8 8 == field d.led.floor 8 8 + 1) 8 8
  need (field b 16 16 == d.rf .SEC_SERIAL_SERIAL) 5 16
  need (svnFits (field b 32 4) (d.rf .SEC_FLOOR_BSV) (d.activeSvn 0)) 8 32
  need (svnFits (field b 36 4) (d.rf .SEC_FLOOR_FSV) (d.activeSvn 1)) 8 36
  need (svnFits (field b 40 4) (d.rf .SEC_FLOOR_LSV) (d.activeSvn 2)) 8 40
  needAll (List.range 16) (fun c => (svnFits (field b (44 + 2 * c) 2) (d.csv c) (d.activeSvn (3 + c)), 8, 44 + 2 * c))

/-- SEC_FLOOR shows the committed floor (R617). -/
def Dev.showFloor (d : Dev) : Dev :=
  let b := d.led.floor
  (((d.wf .SEC_FLOOR_BSV 0 (field b 32 4)).wf .SEC_FLOOR_FSV 0 (field b 36 4)).wf .SEC_FLOOR_LSV 0 (field b 40 4)).wf .SEC_FLOOR_SEQ 0
    (field b 8 8)

/-- The checks that CLOSE makes of what a store holds, and the device once it is committed (R589, R597, R602, R604). -/
def Dev.closeStore (d : Dev) (s : Store) : Chk Dev := do
  let img := s.bytes
  match s.target with
  | 0 =>
    d.envelope img 1 0
    return { d with led.bonds := kput d.led.bonds (1 - d.led.selected) img }
  | 1 =>
    d.envelope img 2 s.index
    return { d with led.chbStaged := kput d.led.chbStaged s.index img }
  | 2 =>
    d.envelope img 3 0
    return { d with led.firmware := kput d.led.firmware (unusedSlot (kget d.led.firmware 0) d.act.firmware) img }
  | 3 =>
    d.envelope img 4 s.index
    let used := sget [] d.act.libraries s.index
    return { d with led.libraries := kput d.led.libraries (2 * s.index + unusedSlot (kget d.led.libraries (2 * s.index)) used) img }
  | 4 =>
    need (Config.ownerAccept d.led.owner img (d.rf .SEC_SERIAL_SERIAL)) 3 0
    return { d with led.owner := img }
  | 5 =>
    let body := img.take 128
    let own := (img.drop 128).take 4627
    need (img.length == 128 + 2 * 4627) 2 0
    d.floorBody body
    need (Config.mlDsa Config.identityKey (sha3 body) own) 3 128
    need (Config.mlDsa (Config.controlKey d.led.owner) (sha3 (body ++ own)) (img.drop (128 + 4627))) 3 (128 + 4627)
    return ({ d with led.floor := img }).showFloor
  | _ =>
    d.envelope img 5 0
    let rs ← imgRecs img
    let p := d.planOf rs
    need (p.fails.all (fun f => decide (f.1 ≤ 7))) 8 (sectPlace img 9)
    return { d with led.fails := p.fails }

/-- CLOSE (R589). -/
def Dev.bndClose (d : Dev) : Dev :=
  if d.rb .BND_STS_BUSY then d.bErr 1 0
  else match d.led.store with
  | none => d.bErr 0xB 0
  | some s =>
    let d := { d with led.store := none }
    match d.closeStore s with
    | .ok e => e.bErr 0 0
    | .error (code, off) => d.bErr code off

/-- SELECT (R612). -/
def Dev.bndSelect (d : Dev) (slot : Nat) : Dev :=
  if d.rb .BND_STS_BUSY then d.bErr 1 0
  else if 1 < slot then d.bErr 8 0
  else ({ d with led.selected := slot }.wf .BND_STS_SELECTED 0 slot).bErr 0 0

/-! ### Activation -/

/-- Modules of an accepted capacity, in GiB (02 R50). -/
def moduleOk (g : Nat) : Bool := [32, 48, 64, 96, 128, 192, 256].contains g

/-- T1 as the modules in the channels make it (02 R50, R51). -/
def Dev.sizeT1 (d : Dev) : Dev :=
  let bad := (List.range 16).filter (fun k => !moduleOk (d.pwr.modules.getD k 0))
  if bad.isEmpty then
    let m := ((List.range 16).map (fun k => d.pwr.modules.getD k 0)).foldl min 256
    (d.wf .XLT_T1_CFG_T1_OK 0 1).wf .XLT_T1_CFG_T1_EXTENTS 0 (16 * m * 4)
  else ((d.wf .XLT_T1_CFG_T1_OK 0 0).wf .XLT_T1_CFG_T1_EXTENTS 0 0).logEvent { kind := 0x0E, u := true, detail := maskOf bad }

/-- The extent table of T0 and T1 (02 R58, R758): an ABSENT extent with backing takes the EXTENT record that names it,
or becomes FREE; those of the frame pools read ABSENT (07 R264). -/
def Dev.buildExts (d : Dev) (exts : List (Nat × Nat × Bool × Nat)) : Dev :=
  let put (n : Nat) : Option (Nat × Ext) :=
    let e := d.extent n
    if d.inPool n then (if e.gen = 0 ∧ e.chamber = 0 then none else some (n, { e with st := .absent }))
    else if e.st ≠ .absent then some (n, e)
    else match exts.find? (fun x => x.1 == n) with
      | some (_, c, _) => some (n, { e with st := .open_, chamber := c })
      | none => some (n, { e with st := .free, gen := (e.gen + 1) % 256 })
  let t0 := (List.range 3455).filterMap (fun i => put (i + 1))
  let t1n := d.rf .XLT_T1_CFG_T1_EXTENTS
  let t1 := (List.range t1n).filterMap (fun i => put (0x4000 + i))
  let rest (lo hi : Nat) : Map Ext := d.ext.filter (fun e => decide (lo ≤ e.1) && decide (e.1 < hi))
  { d with ext := t0 ++ rest 3456 0x4000 ++ t1 ++ rest (0x4000 + t1n) (2 ^ 20) }

/-- Masons whose slot a change of MSN_CO_CFG has assigned or given up take a Mason reset, and are powered on or off; a FAILED one stays off
(09 R384, R385). -/
def Dev.placeMasons (d : Dev) (old : Dev) : Dev :=
  (List.range 144).foldl (fun d k =>
    let was : Bool := (old.masonSlot k).isSome
    let now : Bool := (d.masonSlot k).isSome
    if was == now then d
    else
      let d := d.masonReset k
      let d := if d.masonState k = 4 then d else d.wf .MSN_STS_STATE k (b2n now)
      d.setDom k (if d.masonState k = 4 then 0 else b2n now)) d

/-- A domain is OFF or not: one that is on already keeps its state. -/
def Dev.setOn (d : Dev) (k : Nat) (on : Bool) : Dev :=
  if on && d.rf .PWR_DOM_STS_STATE k != 0 then d else d.setDom k (b2n on)

/-- Gather units and Gallery units are on while some Chamber holds them (18 R694). -/
def Dev.placeUnits (d : Dev) : Dev :=
  let xu : Nat := d.unitsOf.foldl (fun m e => Nat.lor m e.2.1) 0
  let gu : Nat := d.unitsOf.foldl (fun m e => Nat.lor m e.2.2) 0
  let d := (List.range 32).foldl (fun d i => d.setOn (144 + i) (bit xu i)) d
  (List.range 16).foldl (fun d i => d.setOn (176 + i) (bit gu i)) d

/-- The states of the other domains once a Bond is active (18 R694, R695). -/
def Dev.placeDomains (d : Dev) : Dev :=
  let t1 := b2n (d.rb .XLT_T1_CFG_T1_OK)
  let d := (List.range 36).foldl (fun d i => d.setDom (192 + i) 1) d
  let d := ((d.setDom 225 t1).setDom 260 t1).setDom 261 t1
  let d := (List.range 16).foldl (fun d p => d.setDom (229 + p) (b2n (d.rf .HUB_FP_CFG_MODE p != 0))) d
  let d := (List.range 4).foldl (fun d n => d.setDom (245 + n) (b2n (d.rf .NET_EP_CFG_MODE n != 0))) d
  (List.range 9).foldl (fun d k => d.setDom (251 + k) 1) d

/-- HRD_IDX of a Chamber as one number (11 R460). -/
def Dev.idxValue (d : Dev) (c : Nat) : Nat :=
  d.rf .HRD_IDX_EN c + 2 * d.rf .HRD_IDX_SIZE_LOG2 c + 64 * d.rf .HRD_IDX_OFFSET c

/-- MSN_STS.SPARE of each Course's ninth Mason, once a Bond is active (09 R387, DESIGN CHOICE, log 152). -/
def Dev.markSpares (d : Dev) : Dev := (List.range 16).foldl (fun d co => d.wb .MSN_STS_SPARE (9 * co + 8) true) d

/-- The Hoard index of a Chamber is zeroed where EN has come to be set or its place has changed, and its pool is free (11 R458). -/
def Dev.freshIndex (d : Dev) (c : Nat) : Dev :=
  if d.rb .HRD_IDX_EN c then
    if kget d.act.index c = some (d.idxValue c) then d
    else
      let d := d.zeroRange none c (d.rf .HRD_IDX_OFFSET c * 2 ^ 16) (64 * 2 ^ d.rf .HRD_IDX_SIZE_LOG2 c)
      { d with act.index := kput d.act.index c (d.idxValue c), hrd.used := d.hrd.used.filter (fun u => u.1 != c),
               hrd.dropped := d.hrd.dropped.filter (fun e => e.2.1 != c), hrd.hoffs := d.hrd.hoffs.filter (fun e => e.2.chamber != c) }
  else { d with act.index := kdel d.act.index c }

/-- Units, keys and delegates that a plan names (R583, R594, R605). -/
def Dev.takePlan (d : Dev) (p : Plan) : Dev :=
  let d := p.units.foldl (fun d u => { d with unitsOf := kput d.unitsOf u.1 (u.2.2.1, u.2.2.2.1) }) d
  p.keys.foldl (fun d k =>
    { d with chmKey := kput d.chmKey k.1 k.2.1,
             act.delegates := if k.2.2.1.all (fun b => b == 0) then kdel d.act.delegates k.1 else kput d.act.delegates k.1 k.2.2.1 }) d

/-- A Chamber whose UNIT record sets ENABLE becomes ENABLED with its rings stopped; another that the Bond defines stays DISABLED (06 R245). -/
def Dev.setEnabled (d : Dev) (c : Nat) (en : Bool) : Dev :=
  let d := (d.wf .CHM_CTL_ENABLE c (b2n en)).wf .CHM_STS_STATE c (if en then 1 else 4)
  { d with act.enabled := setBits d.act.enabled c 1 (b2n en) }

/-- One EXTENT record applied as ASSIGN (R595 step 5, 02 R62), with its CHB_EXTENT record while CHB_APPLY runs (`id` is 0 at step 7 of R591);
not to an extent that an extent command has in hand
(02 R59). -/
def Dev.chbExtent (d : Dev) (id c n : Nat) : Dev :=
  if (d.extent n).st ≠ .free ∨ d.inHand n 1 = true then d
  else
    let d := if id = 0 then d else d.jAppend 5 id (leBytes 4 n ++ leBytes 4 c)
    let d := if d.zeroesFirst n c then d.zeroExt n else d
    d.setExt n { d.extent n with st := .open_, chamber := c }

/-- Steps 4 to 7 of R595 for a checked entry, which empties the Chamber's table store (10 R411) and zeroes its fault queue where it sets
XLT_FQ_BASE (08 R318); `exts` says whether its EXTENT records are applied. -/
def Dev.chbPut (d : Dev) (id c : Nat) (p : Plan) (exts : Bool) : Dev :=
  let old := d
  let n := { d with regs := p.regs }
  let same (k : Nat) : Bool := old.slotOwner (k / 8) (k % 8) == n.slotOwner (k / 8) (k % 8)
  let moved := (List.range 128).filter (fun k => !same k)
  let d := if exts then p.exts.foldl (fun d e => d.chbExtent id c e.1) d else d
  let d := { d with regs := p.regs }
  let d := if 60000 < d.rf .CHM_OP_TMO_TMO c then d.wf .CHM_OP_TMO_TMO c 60000 else d
  let d := (d.takePlan p).placeMasons old
  let d := d.zeroSems (fun co g => moved.contains (8 * co + g))
  let d := (d.placeUnits.freshIndex c).dropTables c
  let d := if p.words.any (fun w => w.1 == .XLT_FQ_BASE && w.2.1 == c) then d.zeroRange none c (d.rf .XLT_FQ_BASE_OFFSET c * 2 ^ 17) 131072 else d
  match p.units.getLast? with
  | some u => d.setEnabled c u.2.1
  | none => d.setEnabled c (bit d.act.enabled c)

/-- Step 7 of R591 for the Chambers' ACTIVE entries, in Chamber order. An entry that fails its checks is left unapplied, and BND_STS reports it
(log 57). -/
def Dev.chbAgain (d : Dev) (cold : Bool) : Dev :=
  (List.range 16).foldl (fun d c =>
    match kget d.led.chbActive c with
    | none => d
    | some img =>
      match d.checkChb img c true cold with
      | .ok p => (d.chbPut 0 c p cold).wf .CHM_STS_STATE c 4
      | .error (code, off) => d.bErr code off) d

/-! ### Recovery of journaled operations (18 R707, R708) -/

/-- Chamber Bonds that a reset cut short (R596): extents that they assigned return to FREE. -/
def Dev.chbRecover (d : Dev) : Dev :=
  (d.jOpen 3 [4]).foldl (fun d o =>
    let ns := (d.led.journal.filter (fun r => r.typ == 5 && r.id == o.id)).map (fun r => field r.payload 0 4)
    (ns.foldl (fun d n => if (d.extent n).st = .open_ then d.enterFree n else d) d).jAppend 4 o.id []) d

/-- A settle or cartridge transfer goes on after a reset (07 R286). -/
def Settle.forward (s : Settle) (cold : Bool) : Bool := s.transfer || !cold || (extKind s.src == .t2 && extKind s.dst == .t2)

/-- Settles and cartridge transfers are rolled forward or back (07 R286, R292, R300). -/
def Dev.settleRecover (d : Dev) (cold : Bool) : Dev :=
  let todo := d.tier.settles.mergeSort (fun a b => decide (a.2.jid ≤ b.2.jid))
  let d := todo.foldl (fun d (e : Nat × Settle) =>
    let n (t : Nat) : Nat := (d.led.journal.filter (fun r => r.id == e.2.jid && r.typ == t)).length
    if n 0x10 = 0 then
      let d := if (d.extent e.2.dst).st = .settling ∧ e.2.transfer = false then d.enterFree e.2.dst else d
      { d with tier.settles := kdel d.tier.settles e.1, led.t2 := if e.2.transfer then d.led.t2 else kdel d.led.t2 e.2.dst }
    else
      let s : Settle := { e.2 with op := none, done := min 4 (n 0x11), recovered := true, closing := false, got := 0 }
      let d := { d with tier.settles := kput d.tier.settles e.1 s }
      if s.forward cold then d.settleAsk s.jid
      else ({ d with led.t2 := kdel d.led.t2 s.dst }).settleBack e.1 0) d
  match d.tier.xfer with
  | some x => (d.wb .TIE_CART_CSTS_BUSY 0 true).wf .TIE_CART_CSTS_DONE_EXT 0 x.done
  | none => { d with tier.moved := [] }

/-- Handoffs that a warm reset found between PREPARE and their end: the owner queries (11 R456). -/
def Dev.hoffRecover (d : Dev) : Dev :=
  let ids := d.hrd.hoffs.map Prod.fst
  let d := { d with hrd.hoffs := d.hrd.hoffs.map (fun e => (e.1, { e.2 with stage := 2, since := d.gt })) }
  ids.foldl (fun d id => d.handoffQuery id) d

/-! ### LOAD (R591, R592) -/

/-- Steps 1 and 2 for a slot. -/
def Dev.tryBond (d : Dev) (slot : Nat) : Chk (Bytes × Plan) :=
  match kget d.led.bonds slot with
  | none => .error (6, 0)
  | some img => do
    let p ← d.checkBond img
    return (img, p)

/-- What the active Bond names beside registers (R583, R597, R598, R607, R608). -/
def Dev.takeRefs (d : Dev) (img : Bytes) (p : Plan) : Dev :=
  let libs := p.refs.filter (fun r => r.1 == 1)
  let cart := (p.spares.filter (fun s => s.1 == 2)).foldl (fun m s => kput m s.2.1 s.2.2.1) ([] : Map Nat)
  { d with
      act := { d.act with
        bond := imgDigest img
        firmware := match p.refs.find? (fun r => r.1 == 0) with | some r => r.2.2.2.1 | none => []
        libraries := libs.foldl (fun m r => kput m r.2.1 r.2.2.2.1) []
        roles := libs.foldl (fun m r => kput m r.2.1 r.2.2.1) []
        cores := (p.spares.filter (fun s => s.1 == 0)).map (fun s => (s.2.1, s.2.2.1))
        hubPort := (p.spares.find? (fun s => s.1 == 1)).map (fun s => s.2.1)
        delegates := []
        enabled := p.units.foldl (fun m u => setBits m u.1 1 (b2n u.2.1)) 0 }
      led.cartMap := if d.led.cartMap.isEmpty then cart else d.led.cartMap
      coh.agents := p.agents.eraseDups
      coh.hosts := p.hosts.eraseDups
      unitsOf := [], chmKey := [] }

/-- Ports that the Bond uses begin their initial training, and a Haresh link that is down comes up; cartridges present are authenticated (03 R101, R591 step 5, R610). -/
def Dev.startPorts (d : Dev) : Dev :=
  let d := (List.range 16).foldl (fun d p => if d.rf .HUB_FP_CFG_MODE p = 0 then d else d.setLink p (newLink true)) d
  let d := [16, 17].foldl (fun d p => if (d.link_ p).down then d.setLink p (newLink false) else d) d
  (List.range 9).foldl (fun d k => if (d.cart k).fitted then d.cartLinkUp k true else d) d

/-- Steps 3 to 7 of R591. -/
def Dev.activate (d : Dev) (slot : Nat) (img : Bytes) (p : Plan) (cold : Bool) : Dev :=
  let id := 2 ^ 56 + d.led.jseq
  let d := d.jAppend 1 id (leBytes 4 slot)
  let d := { d with regs := p.regs }
  let d := (List.range 16).foldl (fun d c => if 60000 < d.rf .CHM_OP_TMO_TMO c then d.wf .CHM_OP_TMO_TMO c 60000 else d) d
  let d := ((d.sizeT1.takeRefs img p).takePlan p).buildExts p.exts
  let boot := d.led.boot % 65535 + 1
  let d := { d.jAppend 2 id (leBytes 4 slot) with led.boot := boot }
  let d := ((d.wf .SEC_BOOT_BOOT 0 boot).wb .BND_STS_ACTIVE 0 true).wf .BND_STS_RUNNING 0 slot
  let d := (d.placeMasons { d with regs := [] }).markSpares.placeUnits.placeDomains
  let d := p.units.foldl (fun d u => (d.wf .CHM_CTL_ENABLE u.1 (b2n u.2.1)).wf .CHM_STS_STATE u.1 4) d
  let d := d.startPorts
  let d := d.chbRecover.chbAgain cold
  let d := (d.settleRecover cold).tblRecover.hoffRecover
  let cs := (List.range 16).filter (fun c => d.chmState c != 0)
  let d := cs.foldl (fun d c => (d.zeroRange none c (d.rf .XLT_FQ_BASE_OFFSET c * 2 ^ 17) 131072).freshIndex c) d
  cs.foldl (fun d c => d.setEnabled c (d.rb .CHM_CTL_ENABLE c)) d

/-- LOAD once it is accepted, and the load of every warm and cold reset (R591). -/
def Dev.loadRun (d : Dev) (cold : Bool) : Dev :=
  let a := d.led.selected
  let d := d.bErr 0 0
  match d.tryBond a with
  | .ok (img, p) => d.activate a img p cold
  | .error (code, off) =>
    let d := d.wb .BND_STS_FALLBACK 0 true
    match d.tryBond (1 - a) with
    | .ok (img, p) => d.activate (1 - a) img p cold
    | .error _ => d.bErr code off

/-- The last reset lost the memories (18 R703, R713). -/
def Dev.lastCold (d : Dev) : Bool := decide (d.rf .PWR_STS_LAST_RESET < 3)

/-- BND_CMD LOAD (R591, R612). -/
def Dev.bndLoad (d : Dev) : Dev :=
  if d.rb .BND_STS_BUSY || d.active || d.pwr.boot then d.bErr 1 0 else d.loadRun d.lastCold

/-! ### CHB_APPLY (R595, R596) -/

/-- Steps 5 to 7, once the units that the entry takes have risen. -/
def Dev.chbEnd (d : Dev) (c : Nat) : Dev :=
  let d := (d.setChmSt c { d.chmSt c with chb := false }).wb .BND_STS_BUSY 0 false
  match kget d.led.chbStaged c with
  | none => d
  | some img =>
    match d.checkChb img c true true with
    | .error (code, off) => d.bErr code off
    | .ok p =>
      let id := match (d.jOpen 3 [4]).getLast? with | some o => o.id | none => 0
      let d := (d.chbPut id c p true).jAppend 4 id []
      let d := { d with led.chbActive := kput d.led.chbActive c img, led.chbStaged := kdel d.led.chbStaged c }
      d.bErr 0 0

/-- The unit domains whose state `p` of the entry would make: given up (0) or taken (1), of those that are not so yet (R595 step 4). -/
def Dev.chbUnits (d : Dev) (c : Nat) (p : Plan) (on : Nat) : List Nat :=
  let e := d.chbPut 0 c p true
  (List.range 192).filter (fun k => e.rf .PWR_DOM_STS_STATE k == on &&
    (if on = 0 then d.rf .PWR_DOM_STS_STATE k != 0 else d.rf .PWR_DOM_STS_STATE k == 0))

/-- Step 4, once the Chamber is DISABLED or OFF: units given up are powered off, and those taken whose domain is OFF rise (18 R702). -/
def Dev.chbFinish (d : Dev) (c : Nat) : Dev :=
  match kget d.led.chbStaged c with
  | none => d.chbEnd c
  | some img =>
    match d.checkChb img c true true with
    | .error _ => d.chbEnd c
    | .ok p =>
      let up := d.chbUnits c p 1
      let d := (d.chbUnits c p 0).foldl (fun d k => (if k < 144 then d.masonReset k else d).setDom k 0) d
      if up = [] then d.chbEnd c
      else
        { (d.setChmSt c { d.chmSt c with chb := true }).wb .BND_STS_BUSY 0 true with
            pwr.rise := up.foldl (fun m k => kput m k (1, 1)) d.pwr.rise }

/-- A rise from OFF has ended: the Chamber Bond that awaited the last of them goes on (R595, 18 R702). -/
def Dev.chbRisen (d : Dev) : Dev :=
  match (List.range 16).find? (fun c => (d.chmSt c).chb && (d.chmState c == 0 || d.chmState c == 4)) with
  | some c => if d.pwr.rise.any (fun e => e.2.2 == 1) then d else d.chbEnd c
  | none => d

/-- BND_CMD CHB_APPLY (R595). -/
def Dev.chbApply (d : Dev) (c : Nat) : Dev :=
  if d.rb .BND_STS_BUSY || d.led.store.isSome then d.bErr 1 0
  else if !d.active then d.bErr 0xB 0
  else match kget d.led.chbStaged c with
  | none => d.bErr 6 0
  | some img =>
    match d.checkChb img c false true with
    | .error (code, off) => d.bErr code off
    | .ok _ =>
      let dig (x : Option Bytes) : Bytes := match x with | some i => imgDigest i | none => zeros 64
      let d := (d.bErr 0 0).jAppend 3 (2 ^ 56 + d.led.jseq) ((dig (kget d.led.chbActive c)).take 22 ++ (imgDigest img).take 22)
      let st := d.chmState c
      if st = 0 ∨ st = 4 then d.chbFinish c
      else
        let d := if st = 1 then d.disableStart c false true else d.setChmSt c { d.chmSt c with chb := true }
        d.wb .BND_STS_BUSY 0 true

/-- DISABLE_COMPLETE: the Chamber is DISABLED, and a Chamber Bond that waits for it is applied (06 R243, R595). -/
def Dev.disableComplete (d : Dev) (c : Nat) : Dev :=
  let chb := (d.chmSt c).chb && d.chmState c != 4
  let d := d.disableDone c
  if chb && d.chmState c == 4 then d.chbFinish c else d

/-- CHAMBER_RESET_DONE, and a Chamber Bond that waits for it (06 R248, R595). -/
def Dev.chamberResetDone (d : Dev) (c : Nat) : Dev :=
  let chb := (d.chmSt c).chb && d.chmState c != 4
  let d := d.resetDone c
  if chb && d.chmState c == 4 then d.chbFinish c else d

/-! ### Attestation, the floor, journal reads -/

/-- The 1,920 bytes that ATTEST signs (R609). -/
def Dev.report (d : Dev) (nonce : Bytes) : Bytes :=
  let chb (c : Nat) : Bytes := match kget d.led.chbActive c with | some i => padTo 64 (imgDigest i) | none => zeros 64
  leBytes 4 0x7240A77E ++ leBytes 2 1 ++ leBytes 2 d.led.boot ++ leBytes 4 (d.regValue .SEC_DEVID 0) ++ zeros 4 ++
    leBytes 16 (d.rf .SEC_SERIAL_SERIAL) ++ leBytes 8 d.gt ++ leBytes 4 (d.rf .SEC_FLOOR_BSV) ++ leBytes 4 (d.rf .SEC_FLOOR_FSV) ++
    leBytes 4 (d.rf .SEC_FLOOR_LSV) ++ zeros 12 ++ padTo 64 nonce ++ padTo 64 (if d.active then d.act.bond else []) ++
    (List.range 16).flatMap chb ++ padTo 64 (if d.active then d.act.firmware else []) ++
    (List.range 8).flatMap (fun i => padTo 64 (if d.active then sget [] d.act.libraries i else [])) ++
    sha3 (Config.repairCopy d.led.fails d.led.cartMap ((List.range 9).map (fun k => (k, d.rf .TIE_CART_WEAR_BYTES k))) d.led.boot d.led.repairs) ++
    (if d.led.owner.isEmpty then zeros 64 else sha3 d.led.owner)

/-- BND_CMD ATTEST (R609). -/
def Dev.attest (d : Dev) : Dev :=
  if d.rb .BND_STS_BUSY then d.bErr 1 0
  else
    let r := d.report (d.bufBytes 64)
    (d.setBuf (r ++ padTo 4627 (Config.identitySign (sha3 r)))).bErr 0 0

/-- BND_CMD FLOOR_PROPOSE (R604). -/
def Dev.floorPropose (d : Dev) : Dev :=
  if d.rb .BND_STS_BUSY then d.bErr 1 0
  else
    let b := d.bufBytes 128
    match d.floorBody b with
    | .ok _ => (d.setBuf (b ++ padTo 4627 (Config.identitySign (sha3 b)))).bErr 0 0
    | .error (code, off) => d.bErr code off

/-- A journal record as it is stored (R588). -/
def jrecBytes (r : JRec) : Bytes :=
  let b := leBytes 2 r.typ ++ zeros 2 ++ leBytes 4 r.seq ++ leBytes 8 r.id ++ padTo 44 r.payload
  b ++ leBytes 4 (crc32c b)

/-- BND_CMD JREAD (R612): the records whose operation id's low 32 bits are `arg`, in SEQ order, up to 128. -/
def Dev.jread (d : Dev) (arg : Nat) : Dev :=
  if d.rb .BND_STS_BUSY then d.bErr 1 0
  else (d.setBuf (((d.led.journal.filter (fun r => u32 r.id == arg)).take 128).flatMap jrecBytes)).bErr 0 0

/-- BND_CMD with an unused OP (R612). -/
def Dev.bndBadOp (d : Dev) : Dev := if d.rb .BND_STS_BUSY then d.bErr 1 0 else d.bErr 2 0

end Sys2Proof.Machine
end

