-- ==== Sys2Proof/Machine/Power.lean ====
section
/-!
DEFINITION. Clocks, power domains and resets of the device, and the temperatures that it reads (18 R690-R706, 20 R752-R755).
The board's side, the sequencer with its pins, is in `Machine/Package.lean`.
-/

namespace Sys2Proof.Machine

/-! ### The device with nothing in it -/

/-- The Ledger as this model's reset finds it: empty (log 3). -/
def emptyLedger : Ledger :=
  { journal := [], writes := [], jseq := 0, cartMap := [], fails := [], repairs := [], wear := [], boot := 0, bonds := [], selected := 0,
    chbActive := [], chbStaged := [], firmware := [], libraries := [], owner := [], floor := [], cert := [], t2 := [], store := none }

/-- What no Bond has set. -/
def emptyActive : Active :=
  { bond := [], firmware := [], libraries := [], roles := [], cores := [], hubPort := none, delegates := [], index := [], enabled := 0 }

/-- A coherence state with no copy tracked and no request. -/
def emptyCoh : Coh :=
  { dir := [], txns := [], slots := [], tickets := [], nextTicket := 0, blocks := [], reqs := [], nextTag := 0, nextXtag := 0, agents := [],
    clock := 0, fenceTo := [], withheld := [], passed := [], hosts := [], bmirs := [], bseq := [], bseqIn := [], names := [], retried := [],
    admitted := [], waits := [], cxlOwed := [], cxlWait := [], owned := [] }

/-- Domains of the Base group (18 R694). -/
def baseDomains : List Nat := [226, 227, 228, 249, 250, 262, 263]

/-- The Base group begins to rise at a step; LOAD follows (18 R700, R705). -/
def bootPwr (step : Nat) (modules : List Nat) (hot : Bool) : Pwr :=
  { rise := baseDomains.map (fun k => (k, step, 0)), boot := true, warm := none, repeated := false, tripped := [], alert := [], hot := hot,
    modules := modules }

/-- The device with every register at its Reset value and nothing in any unit; the Base group rises from its oscillator step. -/
def blankDev : Dev :=
  { regs := [], mem := [], gt := 0, fresh := 0, out := [], ext := [], extCmd := none, extKey := [], hdm := [], link := [], delivered := [],
    tx := [],
    hub := { staged := [], frames := [], grant := [], accept := [], lastClass := [], deficit := [], strict := [], chamberTurn := [] },
    coh := emptyCoh,
    xlt := { tlb := [], recs := [], invs := [], acnt := [], asrc := [], fqCount := [] },
    ops := [], nextOp := 0, rings := [], chm := [],
    tier := { promo := [], stage := [], seq := 0, settles := [], waiting := [], scheds := [], carts := [], xfer := none, moved := [] },
    led := emptyLedger, flow := [], flowIn := [],
    err := { poison := [], t2side := [], lentSide := [], log := [],
             tlm := { t0r := 0, t0w := 0, t1r := 0, cells := 0, busy := 0, recs := 0, logs := 0 },
             bg := [], refresh := [], fastRefresh := [], tlmRing := [], scrubs := [] },
    masons := [], runs := [], hrd := { ops := [], used := [], dropped := [], hoffs := [], aside := [] },
    tbl := { works := [], moves := [], logs := [], pubs := [], imgs := [], held := [], repls := [], sketch := [] },
    gal := { works := [], nodes := [], gens := [] },
    unitsOf := [], tlyEv := [], chmKey := [], grans := [], wins := [], qps := [],
    net := { rx := [], nextRx := 0, reqs := [], nextReq := 0, cache := [], txPause := [], rxPause := [], held := [], slew := 0 },
    tly := { taken := [], arrived := [], votes := [], expels := [] },
    comp := { revokes := [], mirrorIn := [], later := [] },
    pwr := bootPwr 2 [] false,
    ctl := { held := [], captured := [] },
    act := emptyActive, portEpoch := [], portalDone := [], svcs := [], nextSvc := 0 }

/-! ### Clocks -/

/-- EFFECTIVE and CAPPED as KEEP, the grade and INLET_HOT_N make them (18 R691, 20 R755). -/
def Dev.throttle (d : Dev) : Dev :=
  let cap : Bool := d.pwr.hot && d.rb .SEC_DEVID_GRADE_E
  let keep := d.rf .CLK_ACLK_THR_KEEP
  (d.wb .CLK_ACLK_THR_CAPPED 0 cap).wf .CLK_ACLK_THR_EFFECTIVE 0 (if cap then min keep 17 else keep)

/-- INLET_HOT_N has held a level for 10 ms (20 R755). -/
def Dev.inletHot (d : Dev) (low : Bool) : Dev :=
  { d with pwr.hot := low }.throttle

/-! ### Resets -/

/-- The fields of `fs` at every instance, as `d` holds them. -/
def Dev.keepFields (d : Dev) (p : Fld → Bool) : Map Nat :=
  let keep := (allFlds.filter p).map (fun f => f.ctorIdx)
  d.regs.filter (fun e => keep.contains (e.1 % 1024))

/-- Fields that the Ledger or the package holds, which no reset changes (15 R616, 18 R704, 20 R756). -/
def heldField (f : Fld) : Bool := f == .SEC_SERIAL_SERIAL || f == .SEC_DEVID_GRADE_E || f == .TIE_CART_WEAR_BYTES

/-- Fields that a warm reset keeps (18 R704). -/
def warmField (f : Fld) : Bool :=
  heldField f || [Reg.ERR_LOG_STS, .ERR_LOST, .ERR_CNT, .ERR_STS].contains f.info.reg ||
    [Fld.CLK_STS_REF_LOST, .CLK_STS_UNLOCK, .PWR_STS_REFUSED, .PWR_STS_FAIL_DOM].contains f

/-- Registers whose Reset is "from the Ledger" (18 R704). -/
def Dev.fromLedger (d : Dev) : Dev :=
  ((d.wf .SEC_BOOT_BOOT 0 d.led.boot).wf .BND_STS_SELECTED 0 d.led.selected).showFloor.throttle

/-- T2 extents with data, into the T2 map, which no reset loses (15 R593). -/
def Dev.mapT2 (d : Dev) : Map Ext :=
  (d.ext.filter (fun e => extKind e.1 == .t2 && (e.2.st == .immutable || e.2.st == .settling || e.2.st == .lost))).foldl
    (fun m e => kput m e.1 e.2) d.led.t2

/-- What stands in the cartridge slots after a reset: links and commands are gone. -/
def Dev.slotsKept (d : Dev) : Map Cart :=
  d.tier.carts.map (fun e => (e.1, { e.2 with linkUp := false, authStep := 0, cmds := [] }))

/-- Ledger writes in progress complete (R705 step 4): what follows each commit is done, but nothing is sent. -/
def Dev.drainLedger (d : Dev) : Dev :=
  let ws := d.led.writes
  let e := ws.foldl (fun (d : Dev) w =>
    let d := { d with led.journal := d.led.journal ++ [w.entry] }
    if 0x20 ≤ w.entry.typ ∧ w.entry.typ < 0x30 then d.tblCommitted none w.entry
    else if 0x30 ≤ w.entry.typ then d.hoffCommitted none w.entry
    else if 0x10 ≤ w.entry.typ then d.settleCommitted w.entry
    else d) { d with led.writes := [] }
  { e with out := d.out, tx := [] }

/-- Cold reset (R703, R704, 02 R758, 11 R458, 16 R638): the Ledger, T2 content and cartridge wear are kept. Ledger writes in progress are lost.
The rise starts at `step`. -/
def Dev.coldReset (d : Dev) (cause step : Nat) : Dev :=
  let t2 := d.mapT2
  let t2keys := d.extKey.filter (fun e => extKind e.1 == .t2)
  let e : Dev :=
    { blankDev with
        regs := d.keepFields heldField, mem := d.mem.filter (fun c => decide (0x20000 * 2 ^ 28 ≤ c.1)), gt := d.gt, fresh := d.fresh, out := d.out,
        extKey := t2keys,
        led := { d.led with writes := [], t2 := t2, store := none },
        tier := { blankDev.tier with carts := d.slotsKept, settles := d.tier.settles, xfer := d.tier.xfer, moved := d.tier.moved },
        err := { blankDev.err with t2side := d.err.t2side },
        tbl := { blankDev.tbl with pubs := d.tbl.pubs.filter (fun e => e.2.stage != 0), moves := d.tbl.moves.filter (fun e => e.2.stage != 0),
                                   imgs := d.tbl.imgs.filter (fun e => e.2.done) },
        pwr := bootPwr step d.pwr.modules d.pwr.hot }
  e.fromLedger.wf .PWR_STS_LAST_RESET 0 cause

/-- The lines on which an engine here waits with a write that stage 4 has admitted (R705 step 3, 06 R247). -/
def Dev.engineWrites (d : Dev) : List Nat :=
  (d.coh.waits.filter (fun x => d.waitLive x.1 && d.coh.admitted.contains (x.1, lineExt x.2.1, true))).map (fun x => x.2.1)

/-- The lines of writes that the home admitted and has not performed, engines' writes here and at a lender among them (R705 step 3, 06 R247). -/
def Dev.writesOpen (d : Dev) : List Nat :=
  let lines (first : Nat) (m : Msg) : List Nat := (List.range (if m.opc = 4 then m.args.toNat % 4 + 1 else 1)).map (fun i => first + i)
  (((d.coh.slots.filter (fun e => isWrite e.2.msg.opc && e.2.pa != 0 && e.2.pa / 2 ^ 48 == d.devnum &&
      (match e.2.phase with | .walk _ _ | .fault _ | .stalled _ | .forward | .order => false | _ => true))).flatMap
    (fun e => lines (e.2.pa % 2 ^ 48 / 64) e.2.msg)) ++
   ((d.coh.reqs.filter (fun r => isWrite r.msg.opc && decide (r.msg.opc < 0x20) && r.line / 2 ^ 42 == d.devnum && r.why != .zero)).flatMap
    (fun r => lines (r.line % 2 ^ 42) r.msg)) ++ d.engineWrites).eraseDups

/-- One line with a write in flight is poisoned and logged (R705 step 3, 16 R622, R623, R636). -/
def Dev.warmPoison (d : Dev) (line : Nat) : Dev :=
  (d.poison (d.phys line)).logEvent { kind := 0x12, u := true, aform := 0, addr := d.devnum * 2 ^ 48 + line * 64 }

/-- Steps 3 to 7 of R705: writes in flight are poisoned, TSCORE with LEAVING = 1 is sent, Ledger writes complete, registers take the values of
R704, and the rise starts. After no clock fault the root PLL stays locked, and the oscillator step is skipped (R700, R705, R709; log 162). -/
def Dev.warmFinish (d : Dev) (cause : Nat) : Dev :=
  let d := (d.writesOpen.foldl (fun d l => d.warmPoison l) d).tscoreOut true
  let d := { d with ops := [], runs := [], coh := { emptyCoh with agents := d.coh.agents } }.drainLedger
  let failed := d.regs.filter (fun e =>
    (e.1 % 1024 == Fld.MSN_STS_STATE.ctorIdx && e.2 == 4) || (e.1 % 1024 == Fld.PWR_DOM_STS_STATE.ctorIdx && e.2 == 5 && decide (e.1 / 1024 < 209)))
  let e : Dev :=
    { blankDev with
        regs := failed.foldl (fun m x => kput m x.1 x.2) (d.keepFields warmField),
        mem := d.mem, gt := d.gt, fresh := d.fresh, out := d.out, ext := d.ext, extKey := d.extKey,
        led := { d.led with store := none },
        tier := { blankDev.tier with promo := d.tier.promo.filter (fun e => e.2.st != .filling),
                                     stage := d.tier.stage.filter (fun e => e.2.st != .filling), seq := d.tier.seq, carts := d.slotsKept, settles := d.tier.settles, xfer := d.tier.xfer, moved := d.tier.moved },
        err := { blankDev.err with poison := d.err.poison, t2side := d.err.t2side, lentSide := d.err.lentSide, log := d.err.log },
        hrd := { blankDev.hrd with used := d.hrd.used.filter (fun u => !d.hrd.dropped.any (fun x => x.2.1 == u.1 && x.2.2.contains u.2)),
                                   hoffs := d.hrd.hoffs.filter (fun e => e.2.stage != 0) },
        tbl := { blankDev.tbl with pubs := d.tbl.pubs, moves := d.tbl.moves, imgs := d.tbl.imgs },
        act := { emptyActive with index := d.act.index },
        pwr := bootPwr (if cause = 4 then 2 else 3) d.pwr.modules d.pwr.hot }
  (e.fromLedger.wf .PWR_STS_LAST_RESET 0 cause).wf .CLK_STS_ROOT_LOCK 0 (if cause = 4 then 0 else d.rf .CLK_STS_ROOT_LOCK)

/-- Every directory entry that no transaction holds is scanned: owners are recalled with TO_SHARED = 0, sharers invalidated (R705 step 2). -/
def Dev.scanAll (d : Dev) : Dev :=
  d.coh.dir.foldl (fun d e => if (kget d.coh.txns e.1).isSome then d else d.openTxn e.1 .scan false none) d

/-- A warm reset goes on once no copy is tracked and no snoop is open. -/
def Dev.warmGo (d : Dev) : Dev :=
  match d.pwr.warm with
  | none => d
  | some cause => if d.coh.dir.isEmpty && d.coh.txns.isEmpty then d.warmFinish cause else d.scanAll

/-- A warm reset stops the extent command in progress; an extent whose zeroing was under way is left with content that the spec does
not give: zeros up to a free place (02 R757). -/
def Dev.stopExtCmd (d : Dev) : Dev :=
  match d.extCmd with
  | none => d
  | some k =>
    let n := k.first + k.done
    let d := { d with extCmd := none }
    if k.op = 1 ∧ extKind n = .t0 then { d.zeroMem (n * 2 ^ 28) (Config.free d.fresh % (2 ^ 28 + 1)) with fresh := d.fresh + 1 } else d

/-- A warm reset starts, and each wake in progress stops (R702); one that runs already, or a cold one, goes on unaffected (R705, R706). -/
def Dev.warmReset (d : Dev) (cause : Nat) : Dev :=
  if d.pwr.warm.isSome || d.pwr.boot then d else { d.stopExtCmd with pwr.warm := some cause, pwr.rise := [] }.warmGo

/-- SWEEP_SCAN_DONE: Sweeps of a scan, revocations and a warm reset go on (04 R159, 17 R676, R705). -/
def Dev.scanDone (d : Dev) : Dev := d.sweepScanDone.revokesGo.warmGo

/-- PWR_RST PORT (03 R101, R103, R104, R703, R704): the port's cells are lost, its substituted lanes return, and it trains. -/
def Dev.portReset (d : Dev) (p : Nat) : Dev :=
  if d.rf .HUB_FP_CFG_MODE p = 0 ∨ d.active = false then d
  else
    let d := ((d.discardFor p).loseLender p).setLink p (newLink true)
    Reg.HUB_FP_STS.fields.foldl (fun d f => d.clearFld f p) d

/-- A write of PWR_RST (R714). -/
def Dev.pwrRst (d : Dev) (kind index : Nat) : Dev :=
  match kind with
  | 1 => if d.pwr.boot ∧ d.pwr.rise = [] then d else d.coldReset 2 2
  | 2 => d.warmReset 3
  | 3 => if index < 16 then d.portReset index else d
  | _ => d

/-- A clock fault (R692, R709): absent reference, or a PLL that lost lock. -/
def Dev.clockFault (d : Dev) (refLost : Bool) : Dev :=
  let d := (if refLost then d.wb .CLK_STS_REF_LOST 0 true else d.wb .CLK_STS_UNLOCK 0 true).wb .CLK_STS_HOLDOVER 0 true
  d.warmReset 4

/-! ### Domains -/

/-- A domain that LIT work needs: Shaded, it is Lit at once; Dim, its rise starts (R696, R698, R700). -/
def Dev.touch (d : Dev) (k : Nat) : Dev :=
  match d.rf .PWR_DOM_STS_STATE k with
  | 2 => (d.wf .PWR_DOM_STS_STATE k 1).bump .PWR_DOM_STS_WAKES k
  | 3 => if (kget d.pwr.rise k).isSome then d else { d with pwr.rise := kput d.pwr.rise k (1, 2) }
  | _ => d

/-- The step after a ready signal. Kind 0 is a cold power-up, 1 a rise from OFF, 2 from Dim, 3 from Dark. A rise from Dim has no oscillator step,
and a unit that rises from OFF has no PLL of its own (R700, 01 R37). -/
def nextStep (step kind : Nat) : Nat := if step = 1 ∧ (kind = 1 ∨ kind = 2) then 3 else step + 1

/-- The package is Lit again once every rise from Dark has ended: ports train (R700, R713). -/
def Dev.wakeEnd (d : Dev) : Dev :=
  if d.rf .PWR_STS_STATE = 3 ∧ d.pwr.rise = [] then
    let d := d.wf .PWR_STS_STATE 0 0
    if d.active then (d.startPorts) else d
  else d

/-- LOAD follows the rise of the Base group (15 R591, R700). -/
def Dev.bootEnd (d : Dev) : Dev :=
  if d.pwr.boot ∧ d.pwr.rise = [] then { d with pwr.boot := false, pwr.repeated := false }.loadRun d.lastCold else d

/-- The ready signal of the step that a domain's rise awaits goes high (R700). -/
def Dev.readySignal (d : Dev) (k : Nat) : Dev :=
  match kget d.pwr.rise k with
  | none => d
  | some (step, kind) =>
    let d := if step = 2 then (d.wb .CLK_STS_ROOT_LOCK 0 true).wb .CLK_STS_HOLDOVER 0 false else d
    let step := nextStep step kind
    if step ≤ 4 then { d with pwr.rise := kput d.pwr.rise k (step, kind) }
    else
      let d := (if kind = 2 then d.bump .PWR_DOM_STS_WAKES k else d).wf .PWR_DOM_STS_STATE k 1
      { d with pwr.rise := kdel d.pwr.rise k }.wakeEnd.bootEnd.chbRisen

/-- A ready signal is late (R701): whether the power-up must be repeated, or has failed twice, is the package's to see. -/
def Dev.riseTimeout (d : Dev) (k : Nat) : Dev :=
  match kget d.pwr.rise k with
  | none => d
  | some _ =>
    let d := ({ d with pwr.rise := kdel d.pwr.rise k }.wf .PWR_DOM_STS_STATE k 5).wf .PWR_STS_FAIL_DOM 0 k
    if d.pwr.boot then d else if k < 209 then d.chbRisen else if d.active then d.warmReset 5 else d

/-- A domain has been idle for SHADE_IDLE cycles (R696, R699). -/
def Dev.shadeIdle (d : Dev) (k : Nat) : Dev :=
  let busy : Bool := decide (k < 144) && (d.mason k).run.isSome
  if d.rf .PWR_DOM_STS_STATE k = 1 ∧ busy = false then d.wf .PWR_DOM_STS_STATE k 2 else d

/-- The bit of DIM_GROUPS of an Engine-group domain (R694, R711). -/
def dimBit (k : Nat) : Nat := if k < 144 then 0 else if k < 176 then 1 else if k < 192 then 2 else if k < 200 then 3 else 4

/-- An Engine-group domain has been idle for DIM_IDLE (R696, R699). -/
def Dev.dimIdle (d : Dev) (k : Nat) : Dev :=
  let st := d.rf .PWR_DOM_STS_STATE k
  let busy : Bool := decide (k < 144) && (d.mason k).run.isSome
  if k < 209 ∧ (st = 1 ∨ st = 2) ∧ d.rf .PWR_POLICY_DIM_IDLE ≠ 0 ∧ bit (d.rf .PWR_POLICY_DIM_GROUPS) (dimBit k) = true ∧ busy = false then
    d.wf .PWR_DOM_STS_STATE k 3
  else d

/-! ### Dark (R697, R698, R713) -/

/-- Nothing forbids Dark. -/
def Dev.darkOk (d : Dev) : Bool :=
  (List.range 16).all (fun c => d.chmState c == 0 || d.chmState c == 4) && d.tier.settles.isEmpty && d.tier.xfer.isNone &&
    d.led.writes.isEmpty && d.tbl.pubs.isEmpty && d.tbl.moves.isEmpty && d.tbl.imgs.isEmpty && d.hrd.hoffs.isEmpty && !d.rb .BND_STS_BUSY &&
    !d.rb .ERR_SCRUB_CTL_BUSY && d.pwr.warm.isNone && !d.pwr.boot && d.rf .PWR_STS_STATE == 0

/-- A Port-group domain, or one of the Haresh links: OFF in Dark (R697). -/
def darkOff (k : Nat) : Bool := decide (229 ≤ k ∧ k < 262)

/-- PWR_CMD DARK (R697). -/
def Dev.dark (d : Dev) : Dev :=
  if !d.darkOk then d.wb .PWR_STS_REFUSED 0 true
  else
    let d := d.tscoreOut true
    let d := (List.range 264).foldl (fun d k =>
      if d.rf .PWR_DOM_STS_STATE k = 0 ∨ d.rf .PWR_DOM_STS_STATE k = 5 then d else d.wf .PWR_DOM_STS_STATE k (if darkOff k then 0 else 4)) d
    let d := (List.range 16).foldl (fun d p => if d.rb .HUB_FP_STS_LINK_UP p then d.linkDown p else d) d
    { d with pwr.rise := [], tier.carts := d.slotsKept }.wf .PWR_STS_STATE 0 2

/-- A domain that a wake from Dark brings up: what Dark has stopped, and the ports that the Bond uses (R694, R698). -/
def Dev.wakesFromDark (d : Dev) (k : Nat) : Bool :=
  d.rf .PWR_DOM_STS_STATE k == 4 || k == 249 || k == 250 ||
    (decide (229 ≤ k ∧ k < 245) && d.active && d.rf .HUB_FP_CFG_MODE (k - 229) != 0) ||
    (decide (245 ≤ k ∧ k < 249) && d.active && d.rf .NET_EP_CFG_MODE (k - 245) != 0) ||
    (decide (251 ≤ k ∧ k < 260) && d.active) || ((k == 260 || k == 261) && d.active && d.rb .XLT_T1_CFG_T1_OK)

/-- A wake of the whole package from Dark (R698, R700); when it is not Dark, nothing rises. -/
def Dev.wakePackage (d : Dev) : Dev :=
  if d.rf .PWR_STS_STATE = 2 then
    { d.wf .PWR_STS_STATE 0 3 with pwr.rise := ((List.range 264).filter d.wakesFromDark).map (fun k => (k, 1, 3)) }
  else d

/-- The WAKE_N input, as a level or as a falling edge (R698, R712): from Dark it wakes the package, from Shaded the Base group. -/
def Dev.wakeN (d : Dev) (edge : Bool) : Dev :=
  if d.rb .PWR_WAKE_CFG_EN && d.rb .PWR_WAKE_CFG_EDGE == edge then
    if d.rf .PWR_STS_STATE = 2 then d.wakePackage else baseDomains.foldl (fun d k => d.touch k) d
  else d

/-- A write of PWR_CMD (R713). -/
def Dev.pwrCmd (d : Dev) (op : Nat) : Dev :=
  match op with | 1 => d.dark | 2 => d.wakePackage | _ => d

/-! ### Temperatures (20 R748, R752-R754) -/

/-- Sensors: 0 Keep die, 1 and 2 Rim dies, 3 to 14 HBM stacks. Alert level of each; trip lies 10 degrees above. -/
def alertLevel (i : Nat) : Nat := if i < 3 then 105 else 95

/-- The sensors are read (R748, R752, R753): those at or above alert, or, while THERM_N is asserted, not yet 5 degrees below; those at or above
trip; HBM refresh. -/
def Dev.readSensors (d : Dev) (temps : List Nat) : Dev :=
  let t (i : Nat) : Nat := temps.getD i 0
  let slack : Nat := if d.pwr.alert.isEmpty then 0 else 4
  let alert := (List.range 15).filter (fun i => decide (alertLevel i ≤ t i + slack))
  { d with pwr.alert := alert, pwr.tripped := (List.range 15).filter (fun i => decide (alertLevel i + 10 ≤ t i)),
           err.fastRefresh := (List.range 12).filter (fun i => decide (85 < t (i + 3))) }

/-- A sensor is at or above its trip level on this read and on the one before (R754). -/
def Dev.trips (d : Dev) (temps : List Nat) : Bool := d.pwr.tripped.any (fun i => decide (alertLevel i + 10 ≤ temps.getD i 0))

end Sys2Proof.Machine
end

