-- ==== Sys2Proof/Machine/Package.lean ====
section
/-!
DEFINITION. The package: the power sequencer with SEQ_EN0-SEQ_EN3 and PG0-PG8, RESET_N, FAULT_N and THERM_N (20 R740-R748, R754).
Every function takes the sequencer and the device together.
-/

namespace Sys2Proof.Machine

/-- Where the sequencer stands: unsupplied; RESET_N awaited with every rail down; stage k raised and its PG awaited; every rail up; stage k
lowered and the fall of its PG awaited; stopped with FAULT_N until RESET_N (R741-R743, R748, R754). -/
inductive SeqMode where
  | off | wait | up (k : Fin 4) | on | down (k : Fin 4) | dead
deriving DecidableEq, Repr

/-- The board side. `resetN` is the level of RESET_N; `fault` and `therm` say that FAULT_N and THERM_N are asserted; `again` that a power-up follows
the power-down. -/
structure Pkg where
  mode : SeqMode
  en0 : Bool
  en1 : Bool
  en2 : Bool
  en3 : Bool
  pg : BitVec 9
  resetN : Bool
  again : Bool
  fault : Bool
  therm : Bool
deriving DecidableEq, Repr

/-- PG inputs of the rails of a stage (R740, R741). -/
def stageRails (k : Fin 4) : List Nat :=
  match k with
  | 0 => [4, 8] | 1 => [2, 1] | 2 => [3, 0, 5] | 3 => [6, 7]

/-- The PG of a stage is high (R740). -/
def Pkg.stagePg (p : Pkg) (k : Fin 4) : Bool := (stageRails k).all (fun i => p.pg.getLsbD i)

/-- SEQ_EN outputs of the first `n` stages high, the others low. -/
def Pkg.enTo (p : Pkg) (n : Nat) : Pkg :=
  { p with en0 := decide (0 < n), en1 := decide (1 < n), en2 := decide (2 < n), en3 := decide (3 < n) }

/-- The sequencer in a mode, with the SEQ_EN outputs that the mode has (R741, R743). -/
def Pkg.go (p : Pkg) (m : SeqMode) : Pkg :=
  { p with mode := m }.enTo (match m with | .up k => k.val + 1 | .on => 4 | .down k => k.val | _ => 0)

/-- The power-down starts at the highest stage that is enabled (R743). -/
def Pkg.powerDown (p : Pkg) : Pkg :=
  match p.mode with
  | .on => p.go (.down 3)
  | .up k => p.go (.down k)
  | _ => p

/-- A PG input at a level. -/
def Pkg.setPg (p : Pkg) (i : Fin 9) (high : Bool) : Pkg :=
  { p with pg := if high then p.pg ||| 1#9 <<< i.val else p.pg &&& ~~~ (1#9 <<< i.val) }

/-- The device without its rails: what a cold reset keeps (R743, R744). -/
def Dev.unpowered (d : Dev) (cause : Nat) : Dev := { d.coldReset cause 2 with pwr.rise := [] }

/-- The package: sequencer and device. -/
abbrev PkgDev := Pkg × Dev

/-- SEQ_EN of a stage rises; with its PG high the next one does, and with the last PWR_GOOD starts the oscillator step of the Base group
(R741 steps 3 to 7, 18 R700). -/
def up3 (x : PkgDev) : PkgDev :=
  if x.1.stagePg 3 then (x.1.go .on, { x.2 with pwr.rise := (bootPwr 2 [] false).rise }) else (x.1.go (.up 3), x.2)
def up2 (x : PkgDev) : PkgDev := if x.1.stagePg 2 then up3 x else (x.1.go (.up 2), x.2)
def up1 (x : PkgDev) : PkgDev := if x.1.stagePg 1 then up2 x else (x.1.go (.up 1), x.2)
def up0 (x : PkgDev) : PkgDev := if x.1.stagePg 0 then up1 x else (x.1.go (.up 0), x.2)

/-- The last rail is down: power-up again, or the end (R742, R743). -/
def downEnd (x : PkgDev) : PkgDev :=
  if x.1.again then up0 ({ x.1 with again := false }, x.2) else (x.1.go (if x.1.fault then .dead else .wait), x.2)

/-- The PG of stage k has fallen, or 2 ms have passed: the stage below it is lowered (R743). -/
def downNext (x : PkgDev) (k : Fin 4) : PkgDev :=
  match k with
  | 0 => downEnd x | 1 => (x.1.go (.down 0), x.2) | 2 => (x.1.go (.down 1), x.2) | 3 => (x.1.go (.down 2), x.2)

/-- A power-up fails: it is repeated once, after the power-down; failed again, FAULT_N is asserted (18 R701, R742). -/
def powerFail (x : PkgDev) : PkgDev :=
  let p := x.1
  let d := x.2.unpowered (x.2.rf .PWR_STS_LAST_RESET)
  if x.2.pwr.repeated then ({ p with fault := true, again := false }.powerDown, d)
  else ({ p with again := true }.powerDown, { d with pwr.repeated := true })

/-- VDD_AON and VDD_REF are applied, RESET_N low (R741 step 1); the board's modules are in their channels. -/
def powerApplied (modules : List Nat) (x : PkgDev) : PkgDev :=
  match x.1.mode with
  | .off => ({ x.1 with resetN := false, again := false, fault := false, therm := false }.go .wait,
             { x.2.unpowered 0 with pwr.modules := modules, gt := 0 })
  | _ => x

/-- A rising edge of RESET_N (R741 steps 2 and 3, R743, R745, R748, R754). -/
def resetRelease (x : PkgDev) : PkgDev :=
  let p := { x.1 with resetN := true, fault := false }
  match p.mode with
  | .off => (x.1, x.2)
  | .wait => up0 (p, x.2)
  | .dead => up0 (p, x.2.unpowered 1)
  | .on => (p, x.2.coldReset 1 2)
  | .up _ => ({ p with again := true }.powerDown, x.2.unpowered 1)
  | .down _ => ({ p with again := true }, x.2)

/-- RESET_N held low for more than 1 ms (R743, R745). -/
def resetHold (x : PkgDev) : PkgDev :=
  let p := { x.1 with resetN := false, fault := false, again := false }
  match p.mode with
  | .off => x
  | .dead => (p.go .wait, x.2)
  | .on => (p.powerDown, x.2.unpowered 1)
  | .up _ => (p.powerDown, x.2.unpowered 1)
  | _ => (p, x.2)

/-- A PG rises: with the stage's last, the next SEQ_EN rises, or PWR_GOOD starts the oscillator step of the Base group (R741, 18 R700). -/
def pgRise (i : Fin 9) (x : PkgDev) : PkgDev :=
  let p := x.1.setPg i true
  match p.mode with
  | .up k => match k with
    | 0 => up0 (p, x.2) | 1 => up1 (p, x.2) | 2 => up2 (p, x.2) | 3 => up3 (p, x.2)
  | _ => (p, x.2)

/-- The stage of a PG input. -/
def railStage (i : Fin 9) : Fin 4 :=
  if [4, 8].contains i.val then 0 else if [1, 2].contains i.val then 1 else if [6, 7].contains i.val then 3 else 2

/-- A PG falls: the power-down goes on; while its stage is enabled, that is a failure, which ends a running device for good (R742, R743). -/
def pgFall (i : Fin 9) (x : PkgDev) : PkgDev :=
  let p := x.1.setPg i false
  match p.mode with
  | .down k => if p.stagePg k then (p, x.2) else downNext (p, x.2) k
  | .up k => if railStage i ≤ k then powerFail (p, x.2) else (p, x.2)
  | .on =>
    if x.2.active then ({ p with fault := true, again := false }.powerDown, x.2.unpowered 0) else powerFail (p, x.2)
  | _ => (p, x.2)

/-- A PG is not high 4 ms after its SEQ_EN; in a power-down, 2 ms have passed (R742, R743). -/
def pgTimeout (i : Fin 9) (x : PkgDev) : PkgDev :=
  match x.1.mode with
  | .up k => if railStage i = k ∧ x.1.pg.getLsbD i.val = false then powerFail x else x
  | .down k => if railStage i = k then downNext x k else x
  | _ => x

/-- VDD_AON or VDD_REF falls below 90 % (R744): every SEQ_EN is lowered at once. -/
def aonUndervoltage (x : PkgDev) : PkgDev :=
  match x.1.mode with
  | .off => x
  | _ => ({ x.1 with again := false, fault := false, therm := false }.go .off, x.2.unpowered 0)

/-- A ready signal is late (18 R701): while the Base group rises, the power-up fails. -/
def riseLate (k : Nat) (x : PkgDev) : PkgDev :=
  let fails : Bool := x.2.pwr.boot && (kget x.2.pwr.rise k).isSome
  let d := x.2.riseTimeout k
  if fails then
    let y := powerFail (x.1, d)
    (y.1, y.2.wf .PWR_STS_FAIL_DOM 0 k)
  else (x.1, d)

/-- The sensors are read each 1 ms (R748, R752-R754). -/
def thermalSample (temps : List Nat) (x : PkgDev) : PkgDev :=
  let d := x.2.readSensors temps
  if x.2.trips temps then
    ({ x.1 with fault := true, therm := true, again := false }.go (match x.1.mode with | .off => .off | _ => .dead), d.unpowered 0)
  else ({ x.1 with therm := !d.pwr.alert.isEmpty }, d)

end Sys2Proof.Machine
end

