-- ==== Sys2Proof/Machine/RegWrite.lean ====
section
/-!
DEFINITION. Reads and writes of control space (00 R9-R12, 19 R716-R731): who may reach a register, halves and pieces, what a write does to
each field, and the commands that a write starts. Interface 0 and 1 are HL0 and HL1, interface 2 + p is the BAR0 of fabric port p.
-/

namespace Sys2Proof.Machine

/-! ### Access rules (R723, R727, R731) -/

/-- A host may write the register at an instance (R727): of a bound Chamber, all but three. -/
def Dev.hostWrites (d : Dev) (p : Nat) (r : Reg) (off : Nat) : Bool :=
  d.isCxl p && r.ofChamber && bit (d.rf .HUB_FP_CFG_CHAMBERS p) (offChamber off) && !([Reg.HRD_BKT, .NET_WIN, .NET_V1_TBL].contains r)

/-- A host may read it (R727). -/
def Dev.hostReads (d : Dev) (p : Nat) (r : Reg) (off : Nat) : Bool :=
  d.isCxl p && (r == .SEC_DEVID || r == .SEC_SERIAL || (r.ofChamber && bit (d.rf .HUB_FP_CFG_CHAMBERS p) (offChamber off)))

/-- An interface may write. -/
def Dev.mayWrite (d : Dev) (iface : Nat) (r : Reg) (off : Nat) : Bool := decide (iface < 2) || d.hostWrites (iface - 2) r off

/-- An interface may read. -/
def Dev.mayRead (d : Dev) (iface : Nat) (r : Reg) (off : Nat) : Bool := decide (iface < 2) || d.hostReads (iface - 2) r off

/-- The register holds a WO field (R723). -/
def Reg.hasWo (r : Reg) : Bool := r.fields.any (fun f => f.info.ty == .wo)

/-- A register wider than 64 bits (R724). -/
def Reg.wide (r : Reg) : Bool := decide (64 < r.info.width)

/-- The key of a piece of a wide register, or of its capture, at an interface. -/
def pieceKey (iface off : Nat) : Nat := iface * 2 ^ 24 + off

/-! ### What a write leaves in a field -/

/-- The bits of the field that a write covers take the written value (R9, R723). -/
def merged (f : Fld) (old v mask : Nat) : Nat :=
  let m := f.of mask
  old - Nat.land old m + Nat.land (f.of v) m

/-- A value as a field stores it. For a field whose owning chapter says only that the Bond loader rejects a value out of its range (00 R8,
such as LIMIT of 03 R126), a register write while no Bond is active stores it as written, and the loader checks the fields of the Bond
that it loads (DESIGN CHOICE, log 133) (04 R170, 06 R254, R260, 08 R337, 14 R572, 16 R649, 17 R685). -/
def Dev.stored (d : Dev) (f : Fld) (v : Nat) : Nat :=
  match f with
  | .MRT_RSV_TMO_TMO => clamp 2 1000 v
  | .MRT_RECALL_TMO_TMO => clamp 50 100000 v
  | .MRT_REQ_TMO_TMO => clamp (max 2050 (d.rf .MRT_RECALL_TMO_TMO + 2000)) 1000000 v
  | .CHM_OP_TMO_TMO => min 60000 v
  | .XLT_FQ_CFG_AGE => max 1 v
  | .XLT_FQ_CFG_COUNT => clamp 1 512 v
  | .CHM_RING_SIG_COUNT => max 1 v
  | .CMP_GRACE_TMO => clamp 100 50000 v
  | .CMP_REVOKE_TMO_TMO => clamp 50 100000 v
  | .NET_QP_TMO => clamp 10 1000000 v
  | .NET_QP_PMTU => min 2 v
  | .ERR_SCRUB_RANGE_PAGES => max 1 v
  | _ => v

/-- The field takes a write now (00 R9, R10, 06 R256, 14 R572, R573, 16 R649, 17 R687). -/
def Dev.takes (d : Dev) (f : Fld) (i : Nat) : Bool :=
  match f.info.ty with
  | .rwl => !d.active
  | .rw =>
    match f with
    | .CHM_RING_BASE_BASE | .CHM_RING_CBASE_BASE => d.rf .CHM_RING_STS_STATE i == 0
    | .NET_WIN_QP | .NET_WIN_RKEY => !d.rb .NET_WIN_EN i
    | .CMP_BUTTRESS_ROLE | .CMP_BUTTRESS_CHAMBER | .CMP_BUTTRESS_PEER | .CMP_BUTTRESS_PEER_EXT | .CMP_BUTTRESS_EXTENT =>
      !d.rb .CMP_BUTTRESS_EN i
    | .NET_QP_RIP | .NET_QP_DQPN | .NET_QP_SPSN | .NET_QP_RPSN | .NET_QP_DSCP | .NET_QP_PMTU | .NET_QP_ADDR | .NET_QP_TMO =>
      d.rf .NET_QP_STATE i == 0
    | .ERR_SCRUB_RANGE_BASE | .ERR_SCRUB_RANGE_PAGES => !d.rb .ERR_SCRUB_CTL_BUSY
    | _ => true
  | _ => false

/-- Fields that the register's own write handler sets. -/
def ownWrite (f : Fld) : Bool :=
  [Fld.CHM_CTL_ENABLE, .CHM_RING_CFG_EN, .CHM_RING_CFG_SIZE_LOG2, .CHM_RING_CHD_CHEAD, .XLT_FQ_PTR_HEAD, .XLT_HOT_PTR_HEAD, .TBL_HOT_PTR_HEAD,
   .XLT_CHM_ROOT_ROOT, .MSN_SEM_VALUE, .HRD_BKT_DEV, .HRD_BKT_PREV, .HRD_BKT_PREV_V, .TBL_SKETCH_EN, .TBL_SKETCH_TABLE, .TBL_SKETCH_CHAMBER,
   .HRD_PACK_EXTENT, .NET_WIN_EN, .NET_QP_STATE, .CMP_BUTTRESS_EN].contains f

/-- A write's effect on one field by its type: RW and RWL set, a 1 clears RW1C, RO and WO hold nothing (00 R9). -/
def Dev.fieldWrite (d : Dev) (f : Fld) (i v mask : Nat) : Dev :=
  if f.of mask = 0 ∨ ownWrite f = true then d
  else match f.info.ty with
    | .rw1c => d.wf f i (d.rf f i - Nat.land (d.rf f i) (Nat.land (f.of v) (f.of mask)))
    | _ => if d.takes f i then d.wf f i (d.stored f (merged f (d.rf f i) v mask)) else d

/-! ### Commands of registers -/

/-- BND_CMD (15 R612). -/
def Dev.bndCommand (d : Dev) (op target index arg : Nat) : Dev :=
  match op with
  | 1 => d.bndOpen target index
  | 2 => d.bndData arg
  | 3 => d.bndClose
  | 4 => d.bndAbandon
  | 5 => d.bndSelect arg
  | 6 => d.bndLoad
  | 7 => d.chbApply index
  | 8 => d.attest
  | 9 => d.floorPropose
  | 10 => d.jread arg
  | _ => d.bndBadOp

/-- TLY_CMD (17 R663, R682). -/
def Dev.tlyCommand (d : Dev) (op x : Nat) : Dev :=
  match op with
  | 1 => d.reinstate x
  | 2 => d.expelCmd x
  | 3 => d.probationCmd x
  | _ => d

/-- CMP_CMD (17 R684); an unused OP is ignored. -/
def Dev.cmpCommand (d : Dev) (op epoch : Nat) : Dev :=
  match op with
  | 1 => d.cmpStage epoch
  | 2 => d.cmpCommit epoch
  | 3 => d.cmpAbort
  | _ => d

/-- CHM_CTL (06 R251). -/
def Dev.chmCtl (d : Dev) (c : Nat) (reset en : Bool) : Dev :=
  if reset then d.chamberReset c else if en then d.chamberEnable c else d.chamberDisable c

/-- CHM_RING_CFG (06 R257). -/
def Dev.ringCfg (d : Dev) (i : Nat) (en : Bool) (size : Nat) : Dev :=
  if en then d.ringEnable (i / 64) (i % 64) size
  else if d.rb .CHM_RING_CFG_EN i then d.ringDisable (i / 64) (i % 64)
  else d.wf .CHM_RING_CFG_SIZE_LOG2 i (clamp 6 16 size)

/-- A ring's consumer pointer: a write that makes TAIL - HEAD exceed the ring is ignored (08 R337, 12 R513). -/
def Dev.hotHead (d : Dev) (tail head : Fld) (i room v : Nat) : Dev :=
  if room < subMod 32 (d.rf tail i) v then d else d.wf head i v

/-- HRD_PACK.EXTENT sets USED to 0, and is ignored while a SEAL with PACK = 1 runs (11 R462). -/
def Dev.packExtent (d : Dev) (c n : Nat) : Dev :=
  if d.ops.any (fun e => e.2.chamber == c && e.2.opcode == 0x32 && bit (e.2.f 36 1) 0) then d
  else (d.wf .HRD_PACK_EXTENT c n).wf .HRD_PACK_USED c 0

/-- NET_QP.STATE (14 R572). -/
def Dev.qpState (d : Dev) (q st : Nat) : Dev :=
  if st = 0 then (if d.rf .NET_QP_STATE q = 0 then d else d.qpReset q) else if st = 1 then d.qpRts q else d

/-- What a write of a register starts beside setting fields. `v` and `mask` are the written value and the bits that it covers. -/
def Dev.regAct (d : Dev) (r : Reg) (i v mask : Nat) : Dev :=
  let g (f : Fld) : Nat := merged f (if f.info.ty = .wo then 0 else d.rf f i) v mask
  let on (f : Fld) : Bool := g f == 1
  let hit (f : Fld) : Bool := f.of mask != 0
  match r with
  | .BND_CMD => d.bndCommand (g .BND_CMD_OP) (g .BND_CMD_TARGET) (g .BND_CMD_INDEX) (g .BND_CMD_ARG)
  | .PWR_CMD => d.pwrCmd (g .PWR_CMD_OP)
  | .PWR_RST => d.pwrRst (g .PWR_RST_KIND) (g .PWR_RST_INDEX)
  | .CLK_ACLK_THR => d.throttle
  | .ERR_LOG_FREE => d.logFree (on .ERR_LOG_FREE_ALL) (g .ERR_LOG_FREE_SLOT)
  | .ERR_SCRUB_CTL => if on .ERR_SCRUB_CTL_START then d.scrubStart (on .ERR_SCRUB_CTL_T2) [] [] else d
  | .XLT_EXT_CMD => d.extCommand (g .XLT_EXT_CMD_OP) (g .XLT_EXT_CMD_CHAMBER)
  | .TIE_CART_CMD => d.cartCommand (g .TIE_CART_CMD_OP) (g .TIE_CART_CMD_SLOT) (g .TIE_CART_CMD_TARGET)
  | .MSN_SEM => d.semWrite (i / 64) (i % 64) (g .MSN_SEM_VALUE)
  | .TBL_SKETCH => d.sketchWrite i (g .TBL_SKETCH_CHAMBER) (g .TBL_SKETCH_TABLE) (on .TBL_SKETCH_EN)
  | .TLY_CMD => d.tlyCommand (g .TLY_CMD_OP) (g .TLY_CMD_DEVICE)
  | .CMP_CMD => d.cmpCommand (g .CMP_CMD_OP) (g .CMP_CMD_EPOCH)
  | .CMP_REVOKE => d.cmpRevoke (g .CMP_REVOKE_EXTENT) (g .CMP_REVOKE_COUNT)
  | .CMP_RESOLVE => d.cmpResolve (g .CMP_RESOLVE_WINNER) (g .CMP_RESOLVE_CHAMBER) (g .CMP_RESOLVE_SLOT)
  | .CMP_BUTTRESS => if hit .CMP_BUTTRESS_EN then d.pairEnable i (on .CMP_BUTTRESS_EN) else d
  | .NET_QP => if hit .NET_QP_STATE then d.qpState i (g .NET_QP_STATE) else d
  | .CHM_CTL => d.chmCtl i (on .CHM_CTL_RESET) (on .CHM_CTL_ENABLE)
  | .XLT_CHM_ROOT => d.rootWrite i (g .XLT_CHM_ROOT_ROOT)
  | .XLT_INV_CMD => d.invalidateRegister i (g .XLT_INV_CMD_PAGE) (on .XLT_INV_CMD_ALL) (g .XLT_INV_CMD_PAGES)
  | .XLT_FQ_PTR => if hit .XLT_FQ_PTR_HEAD then d.fqHeadWrite i (g .XLT_FQ_PTR_HEAD) else d
  | .XLT_FQ_RESUME => d.faultResume i (g .XLT_FQ_RESUME_BATCH)
  | .XLT_HOT_PTR => if hit .XLT_HOT_PTR_HEAD then d.hotHead .XLT_HOT_PTR_TAIL .XLT_HOT_PTR_HEAD i 16384 (g .XLT_HOT_PTR_HEAD) else d
  | .TBL_HOT_PTR => if hit .TBL_HOT_PTR_HEAD then d.hotHead .TBL_HOT_PTR_TAIL .TBL_HOT_PTR_HEAD i 4096 (g .TBL_HOT_PTR_HEAD) else d
  | .HRD_PACK => if hit .HRD_PACK_EXTENT then d.packExtent i (g .HRD_PACK_EXTENT) else d
  | .HRD_BKT => d.bucketWrite (i / 256) (i % 256) (g .HRD_BKT_DEV) (g .HRD_BKT_PREV) (on .HRD_BKT_PREV_V)
  | .GAL_CACHE_CLR => if on .GAL_CACHE_CLR_CLR then d.galCacheClr i else d
  | .NET_WIN => if hit .NET_WIN_EN then d.winEnable i (on .NET_WIN_EN) else d
  | .CHM_RING_CFG => d.ringCfg i (on .CHM_RING_CFG_EN) (g .CHM_RING_CFG_SIZE_LOG2)
  | .CHM_RING_DB => d.doorbell (i / 64) (i % 64) (g .CHM_RING_DB_TAIL)
  | .CHM_RING_CHD => d.setChead (i / 64) (i % 64) (g .CHM_RING_CHD_CHEAD)
  | _ => d

/-- The Chamber whose region holds instance `i` of a register (R729, R731). -/
def regChamber (r : Reg) (i : Nat) : Nat :=
  match r.info.dims with
  | (_, _) :: (k, _) :: _ => i / (if k < 8 then 8 else k)
  | _ => i

/-- A whole write of instance `i` of a register: each field by its type, then what the register starts. In the region of a Chamber that no
active Bond defines, only RW1C bits clear, and CHM_CTL and XLT_INV_CMD set REFUSED (R731). -/
def Dev.wholeWrite (d : Dev) (r : Reg) (i v mask : Nat) : Dev :=
  if r.ofChamber && !d.chmDefined (regChamber r i) then
    let e := r.fields.foldl (fun d f => if f.info.ty = .rw1c then d.fieldWrite f i v mask else d) d
    match r with
    | .CHM_CTL | .XLT_INV_CMD => e.regAct r i v mask
    | _ => e
  else
    let fields (d : Dev) : Dev := r.fields.foldl (fun d f => d.fieldWrite f i v mask) d
    (fields d).regAct r i v mask

/-- A write of 4 or 8 bytes at an offset by an interface (R718, R721-R727). -/
def Dev.registerWrite (d : Dev) (iface off len v : Nat) : Dev :=
  let d := d.touch 228
  if len ≠ 4 ∧ len ≠ 8 ∨ off % len ≠ 0 then d
  else match locate (off / 8 * 8) with
  | none => d
  | some (r, i, b) =>
    if !d.mayWrite iface r off then d
    else if r.wide then
      if len = 4 then d
      else
        let d := { d with ctl.held := kput d.ctl.held (pieceKey iface off) (v % 2 ^ 64) }
        if b + 8 < r.info.width / 8 then d
        else
          let n := r.info.width / 64
          let first := off - b
          let piece (k : Nat) : Nat := (kget d.ctl.held (pieceKey iface (first + 8 * k))).getD (d.regValue r i / 2 ^ (64 * k) % 2 ^ 64)
          let whole := (List.range n).foldl (fun x k => x + piece k * 2 ^ (64 * k)) 0
          let d := { d with ctl.held := d.ctl.held.filter (fun e =>
            !(decide (pieceKey iface first ≤ e.1) && decide (e.1 < pieceKey iface (first + 8 * n)))) }
          d.wholeWrite r i whole (2 ^ r.info.width - 1)
    else if len = 8 then d.wholeWrite r i (v % 2 ^ r.info.width) (2 ^ r.info.width - 1)
    else if off % 8 = 0 then
      if r.info.width = 32 then d.wholeWrite r i (v % 2 ^ 32) (2 ^ 32 - 1)
      else if r.hasWo then d
      else d.wholeWrite r i (v % 2 ^ 32) (2 ^ 32 - 1)
    else if r.info.width = 32 ∨ r.hasWo = true then d
    else d.wholeWrite r i (v % 2 ^ 32 * 2 ^ 32) (2 ^ 32 * (2 ^ 32 - 1))

/-- A read of the lowest piece of a wide register captures it for the interface (R724). -/
def Dev.wideCapture (d : Dev) (iface off : Nat) : Dev :=
  let d := d.touch 228
  match locate off with
  | some (r, i, 0) =>
    if r.wide && d.mayRead iface r off then { d with ctl.captured := kput d.ctl.captured (pieceKey iface off) (d.regValue r i) } else d
  | _ => d

/-- The 8-byte word that a read returns (R718, R724, R727): of a wide register's higher pieces, the captured value. -/
def Dev.registerRead (d : Dev) (iface off : Nat) : Nat :=
  match locate off with
  | none => 0
  | some (r, i, b) =>
    if !d.mayRead iface r off then 0
    else if r.wide && b != 0 then ((kget d.ctl.captured (pieceKey iface (off - b))).getD 0) / 2 ^ (8 * b) % 2 ^ 64
    else d.regValue r i / 2 ^ (8 * b) % 2 ^ 64

/-! ### Register access in CTRL flits of a Haresh link (R717-R719) -/

/-- The header of a register request: of another OP, or with a reserved field that is not zero, none (R717). -/
def ctrlHeader (s : Bytes) : Option (Bool × Nat × Nat × Nat) :=
  let op := field s 0 1
  if (op = 1 ∨ op = 2) ∧ field s 1 1 < 16 ∧ field s 2 2 = 0 ∧ field s 11 1 = 0 ∧ (s.drop 12).all (fun b => b == 0#8) = true then
    some (op == 2, field s 1 1 + 1, field s 4 4, field s 8 3)
  else none

/-- One word of a READ: a wide register's lowest piece is captured first (R724). -/
def Dev.ctrlRead (d : Dev) (iface off : Nat) : Dev × Nat :=
  let d := d.wideCapture iface off
  (d, d.registerRead iface off)

/-- A register request is performed, word after word, and its answer formed (R717-R719). What the data slots of an answer hold beyond the
words read is free (log 134). -/
def Dev.ctrlDo (d : Dev) (p : Nat) (write : Bool) (words tag off : Nat) (data : Bytes) : Dev :=
  let iface := p - 16
  let range := decide (off % 8 ≠ 0 ∨ 2 ^ 23 < off + 8 * words)
  let offs := if range then [] else (List.range words).map (fun i => off + 8 * i)
  let (d, vals) :=
    if write then
      ((List.range offs.length).foldl (fun d i => d.registerWrite iface (off + 8 * i) 8 (field data (8 * i) 8)) d, [])
    else offs.foldl (fun (acc : Dev × Bytes) o => let r := acc.1.ctrlRead iface o; (r.1, acc.2 ++ leBytes 8 r.2)) (d, [])
  let size := if write then 0 else 32 * ((words + 3) / 4)
  let body := vals ++ leBytes (size - vals.length) (Config.free d.fresh)
  let result := if range then 2 else if offs.any (fun o => (locate o).isNone) then 1 else 0
  let head := [if write then 0x82#8 else 0x81#8, BitVec.ofNat 8 (words - 1), BitVec.ofNat 8 result, 0#8] ++ leBytes 4 tag ++ leBytes 4 off ++ zeros 20
  let l := d.link_ p
  { d with fresh := d.fresh + 1 }.setLink p { l with answers := l.answers ++ [head :: chunks 32 5 body] }

/-- The slots of CTRL flits in order: a header, then the data slots of a WRITE. An all-zero slot where a header is due is empty (log 21). -/
def Dev.ctrlSlots (d : Dev) (p : Nat) : List Bytes → Dev
  | [] => d
  | s :: rest =>
    let l := d.link_ p
    if l.ctrl.isEmpty && s.all (fun b => b == 0#8) then d.ctrlSlots p rest
    else
      let part := l.ctrl ++ [s]
      match ctrlHeader (part.headD []) with
      | none => d.linkError p
      | some (write, words, tag, off) =>
        if write && decide (part.length < 1 + (words + 3) / 4) then (d.setLink p { l with ctrl := part }).ctrlSlots p rest
        else ((d.setLink p { l with ctrl := [] }).ctrlDo p write words tag off (part.drop 1).flatten).ctrlSlots p rest

/-- Answers go out, oldest first, while the replay buffer has room (03 R95). -/
def Dev.ctrlOut (d : Dev) (p : Nat) : Nat → Dev
  | 0 => d
  | fuel + 1 =>
    let l := d.link_ p
    match l.answers with
    | a :: rest => if l.replay.length < 2048 then ((d.setLink p { l with answers := rest }).sendFlit p 2 a).ctrlOut p fuel else d
    | [] => d

/-- A flit arrives on a Haresh link, HL0 as port 16 and HL1 as port 17 (14 R553). Its CTRL flits carry register access; the messages of
its MSG flits are commands of their own, which name the management path (log 123). -/
def Dev.hareshFlit (d : Dev) (p : Nat) (raw : Bytes) : Dev :=
  if !d.linkReady p || raw.length != 256 then d
  else match d.flitBytes p raw with
    | (d, none) => d.flitBad p
    | (d, some f) =>
      let d := d.flitIn p f (fun d kind slots => if kind = 2 then d.ctrlSlots p slots else d)
      d.ctrlOut p (d.link_ p).answers.length

end Sys2Proof.Machine
end

