-- ==== Sys2Proof/Machine/State.lean ====
section
/-!
DEFINITION. The machine's state: the device, the package sequencer beside it, and the commands that wait (log 60).
-/

namespace Sys2Proof.Machine

/-- The device (`Machine/Dev.lean`), the board side of the package (`Machine/Package.lean`, 20), and the queue of commands, first in first
out. -/
structure State where
  dev : Dev
  pkg : Pkg
  pending : List Instr
deriving DecidableEq, Repr

/-- A fault would stop the machine. The spec stops the device on no command: errors are logged, answered or poisoned, and the device goes on.
So there is no fault, which is safe: nothing can be proved of one. -/
inductive Fault where
deriving DecidableEq, Repr

/-- Reasons for which a command has no meaning. -/
inductive Refusal where
  /-- raised by an arm of `exec` whose command has no meaning yet; safe, since the machine stops there. No arm raises it. -/
  | notModelled (mnemonic : String)
deriving DecidableEq, Repr

/-- The sequencer right after a reset: every rail is up, RESET_N is high (20 R741, R743; log 4). -/
def resetPkg : Pkg :=
  { mode := .on, en0 := true, en1 := true, en2 := true, en3 := true, pg := 0x1FF#9, resetN := true, again := false, fault := false,
    therm := false }

/-- Right after a cold reset with nothing stored: every register at its Reset value, every unit empty, and the Base group about to rise from
its oscillator step (18 R700, R703, R704; logs 2 to 6). No command waits. -/
def State.reset : State := { dev := blankDev, pkg := resetPkg, pending := [] }

end Sys2Proof.Machine
end

