-- ==== Sys2Proof/Machine/Ops.lean ====
section
/-!
DEFINITION. The operations that the commands share: an effect on the device or on the package, the power domains that work wakes (18 R698),
and what follows the commit of a journal record (15 R588).
-/

namespace Sys2Proof.Machine

/-- An effect on the device. Without its rails the device has no part in a command, which then changes nothing (20 R741, R743; log 61). -/
def State.onDev (f : Dev → Dev) (s : State) : State :=
  if s.pkg.mode = .on then { s with dev := f s.dev } else s

/-- An effect on the sequencer and the device together (20 R741-R748). -/
def State.onPkg (f : PkgDev → PkgDev) (s : State) : State :=
  let x := f (s.pkg, s.dev)
  { s with pkg := x.1, dev := x.2 }

/-- Time passes with no command: 10 ns, one period of TCLK, the links send what waits for them (log 62), and service cores take up work whose wait is over (log 131). The always-on domain keeps GT
while the package is supplied (18 R695). -/
def State.idle (s : State) : State :=
  match s.pkg.mode with
  | .off => s
  | _ => { s with dev := { s.dev with gt := s.dev.gt + 10 } }.onDev (fun d => d.txGo.svcGo)

/-! ### The domains that a command's work needs (18 R694, R698; log 63) -/

/-- Traffic at a fabric port: the port and the Hub. -/
def Dev.usePort (d : Dev) (p : Nat) : Dev := (d.touch (229 + p)).touch 226

/-- A flit arrives on a Mortar link: a fabric port, or a Haresh link (03 R90, 14 R553). -/
def Dev.anyFlit (d : Dev) (p : Nat) (raw : Bytes) : Dev :=
  if isHl p then (d.touch (233 + p)).hareshFlit p raw else (d.usePort p).flitReceive p raw

/-- Traffic on a Haresh link, or a Tally tick. -/
def Dev.useHaresh (d : Dev) : Dev := (d.touch 249).touch 250

/-- The path of a Tally message: a fabric port, or the management path. -/
def Dev.usePath (d : Dev) (port : Option (Fin 16)) : Dev :=
  match port with
  | some p => d.usePort p.val
  | none => d.useHaresh

/-- An Ethernet frame at logical port 2n + m of EPn. -/
def Dev.useEth (d : Dev) (port : Nat) : Dev := (d.touch (245 + port / 2)).touch 226

/-- A cartridge port. -/
def Dev.useCart (d : Dev) (k : Nat) : Dev := d.touch (251 + k)

/-- The engine stop whose Barrow or codec works on an operation. -/
def Dev.useBarrow (d : Dev) (id : Nat) : Dev :=
  if (List.range 8).all (fun i => !(d.rf .PWR_DOM_STS_STATE (192 + i) == 2 || d.rf .PWR_DOM_STS_STATE (192 + i) == 3)) then d
  else d.touch (192 + Config.barrow id % 32 / 4)

/-- The oldest journal record being written commits, and what waits for it goes on: a settle (07 R283), a publish or move
(12 R483-R508), or a handoff (11 R455, R456). -/
def Dev.recordCommit (d : Dev) : Dev :=
  match d.led.writes with
  | [] => d
  | w :: _ =>
    let d := d.journalCommit
    if 0x30 ≤ w.entry.typ then d.hoffCommitted none w.entry
    else if 0x20 ≤ w.entry.typ then d.tblCommitted none w.entry
    else if 0x10 ≤ w.entry.typ then d.settleCommitted w.entry
    else d

/-- CMP_REVOKE_TMO expires for the revocation that started first of those for which it has not: all wait equally long (17 R676). -/
def Dev.oldestRevokeTimeout (d : Dev) : Dev :=
  match d.comp.revokes.find? (fun v => !v.late) with
  | some v => d.revokeTimeout v.first
  | none => d

end Sys2Proof.Machine
end

