-- ==== Sys2Proof/Machine/ExecBond.lean ====
section
/-!
DEFINITION. Meanings: The Bond, the Ledger and attestation (15).
Each hands its operands to the device's operation of the cited rule.
-/

namespace Sys2Proof.Machine

/-- BND_OPEN (R589). -/
def execBndOpen (target : BitVec 4) (index : BitVec 4) (s : State) : Host.Outcome State Fault Refusal :=
  .next (s.onDev (fun d => (d.touch 228).bndOpen target.toNat index.toNat))

/-- BND_DATA (R589). -/
def execBndData (arg : BitVec 32) (s : State) : Host.Outcome State Fault Refusal :=
  .next (s.onDev (fun d => (d.touch 228).bndData arg.toNat))

/-- BND_CLOSE (R589). -/
def execBndClose (s : State) : Host.Outcome State Fault Refusal :=
  .next (s.onDev (fun d => (d.touch 228).bndClose))

/-- BND_ABANDON (R612). -/
def execBndAbandon (s : State) : Host.Outcome State Fault Refusal :=
  .next (s.onDev (fun d => (d.touch 228).bndAbandon))

/-- BND_SELECT (R612). -/
def execBndSelect (slot : BitVec 32) (s : State) : Host.Outcome State Fault Refusal :=
  .next (s.onDev (fun d => (d.touch 228).bndSelect slot.toNat))

/-- LOAD (R591). -/
def execLoad (s : State) : Host.Outcome State Fault Refusal :=
  .next (s.onDev (fun d => (d.touch 228).bndLoad))

/-- CHB_APPLY (R595). -/
def execChbApply (chamber : Fin 16) (s : State) : Host.Outcome State Fault Refusal :=
  .next (s.onDev (fun d => (d.touch 228).chbApply chamber.val))

/-- ATTEST (R609). -/
def execAttest (s : State) : Host.Outcome State Fault Refusal :=
  .next (s.onDev (fun d => (d.touch 228).attest))

/-- FLOOR_PROPOSE (R604). -/
def execFloorPropose (s : State) : Host.Outcome State Fault Refusal :=
  .next (s.onDev (fun d => (d.touch 228).floorPropose))

/-- JREAD (R612). -/
def execJread (arg : BitVec 32) (s : State) : Host.Outcome State Fault Refusal :=
  .next (s.onDev (fun d => (d.touch 228).jread arg.toNat))

/-- BND_CMD_BAD_OP (R612). -/
def execBndCmdBadOp (s : State) : Host.Outcome State Fault Refusal :=
  .next (s.onDev (fun d => (d.touch 228).bndBadOp))

/-- JOURNAL_RECORD_COMMIT (R588). -/
def execJournalRecordCommit (s : State) : Host.Outcome State Fault Refusal :=
  .next (s.onDev (fun d => d.recordCommit |>.endGone))

end Sys2Proof.Machine
end

