-- ==== Sys2Proof/Machine/ExecChambers.lean ====
section
/-!
DEFINITION. Meanings: Chambers, work rings and their descriptors (06).
Each hands its operands to the device's operation of the cited rule.
-/

namespace Sys2Proof.Machine

/-- CHAMBER_ENABLE (R245). -/
def execChamberEnable (chamber : Fin 16) (s : State) : Host.Outcome State Fault Refusal :=
  .next (s.onDev (fun d => (d.touch 228).chamberEnable chamber.val))

/-- CHAMBER_DISABLE (R243). -/
def execChamberDisable (chamber : Fin 16) (s : State) : Host.Outcome State Fault Refusal :=
  .next (s.onDev (fun d => (d.touch 228).chamberDisable chamber.val))

/-- CHAMBER_RESET (R247). -/
def execChamberReset (chamber : Fin 16) (s : State) : Host.Outcome State Fault Refusal :=
  .next (s.onDev (fun d => (d.touch 228).chamberReset chamber.val))

/-- DRAIN_TIMEOUT (R243). -/
def execDrainTimeout (chamber : Fin 16) (s : State) : Host.Outcome State Fault Refusal :=
  .next (s.onDev (fun d => d.drainTimeout chamber.val |>.endGone))

/-- DISABLE_COMPLETE (R243). -/
def execDisableComplete (chamber : Fin 16) (s : State) : Host.Outcome State Fault Refusal :=
  .next (s.onDev (fun d => d.disableComplete chamber.val))

/-- CHAMBER_RESET_DONE (R248). -/
def execChamberResetDone (chamber : Fin 16) (s : State) : Host.Outcome State Fault Refusal :=
  .next (s.onDev (fun d => d.chamberResetDone chamber.val))

/-- DOORBELL (R236). -/
def execDoorbell (chamber : Fin 16) (ring : Fin 64) (tail : BitVec 32) (s : State) : Host.Outcome State Fault Refusal :=
  .next (s.onDev (fun d => (d.touch 227).doorbell chamber.val ring.val tail.toNat))

/-- COMPLETION_HEAD_WRITE (R258). -/
def execCompletionHeadWrite (chamber : Fin 16) (ring : Fin 64) (chead : BitVec 32) (s : State) : Host.Outcome State Fault Refusal :=
  .next (s.onDev (fun d => (d.touch 227).setChead chamber.val ring.val chead.toNat))

/-- RING_ENABLE (R257). -/
def execRingEnable (chamber : Fin 16) (ring : Fin 64) (sizeLog2 : BitVec 5) (s : State) : Host.Outcome State Fault Refusal :=
  .next (s.onDev (fun d => (d.touch 227).ringEnable chamber.val ring.val sizeLog2.toNat))

/-- RING_DISABLE (R257). -/
def execRingDisable (chamber : Fin 16) (ring : Fin 64) (s : State) : Host.Outcome State Fault Refusal :=
  .next (s.onDev (fun d => (d.touch 227).ringDisable chamber.val ring.val))

/-- DESCRIPTOR_ADMIT (R237). -/
def execDescriptorAdmit (chamber : Fin 16) (ring : Fin 64) (s : State) : Host.Outcome State Fault Refusal :=
  .next (s.onDev (fun d => d.descriptorAdmit chamber.val ring.val))

/-- DESCRIPTOR_FETCH_DONE (R760). -/
def execDescriptorFetchDone (id : Nat) (s : State) : Host.Outcome State Fault Refusal :=
  .next (s.onDev (fun d => d.descriptorFetched id))

/-- NOP (R226). -/
def execNop (id : Nat) (s : State) : Host.Outcome State Fault Refusal :=
  .next (s.onDev (fun d => d.nop id))

/-- ATOMIC_DESCRIPTOR (R227). -/
def execAtomicDescriptor (id : Nat) (s : State) : Host.Outcome State Fault Refusal :=
  .next (s.onDev (fun d => (d.useBarrow id).atomicDesc id))

/-- SIGNAL_AGE_TIMER (R239). -/
def execSignalAgeTimer (chamber : Fin 16) (ring : Fin 64) (s : State) : Host.Outcome State Fault Refusal :=
  .next (s.onDev (fun d => d.signalAge chamber.val ring.val))

/-- OP_TIMEOUT (R246). -/
def execOpTimeout (id : Nat) (s : State) : Host.Outcome State Fault Refusal :=
  .next (s.onDev (fun d => d.opTimeout id |>.endGone))

end Sys2Proof.Machine
end

