-- ==== Sys2Proof/Machine/ExecErrors.lean ====
section
/-!
DEFINITION. Meanings: Errors, scrub and telemetry (16).
Each hands its operands to the device's operation of the cited rule.
-/

namespace Sys2Proof.Machine

/-- SCRUB (R627). -/
def execScrub (id : Nat) (errs : List LineErr) (bad : List Nat) (s : State) : Host.Outcome State Fault Refusal :=
  .next (s.onDev (fun d => d.scrub id errs bad))

/-- SCRUB_START (R630). -/
def execScrubStart (t2 : Bool) (errs : List LineErr) (bad : List Nat) (s : State) : Host.Outcome State Fault Refusal :=
  .next (s.onDev (fun d => (d.touch 228).scrubStart t2 errs bad))

/-- LOG_FREE (R645). -/
def execLogFree (all : Bool) (slot : BitVec 13) (s : State) : Host.Outcome State Fault Refusal :=
  .next (s.onDev (fun d => (d.touch 228).logFree all slot.toNat))

/-- TELEMETRY_TICK (R643). -/
def execTelemetryTick (s : State) : Host.Outcome State Fault Refusal :=
  .next (s.onDev (fun d => d.telemetryTick))

/-- BACKGROUND_DEFER (R632). -/
def execBackgroundDefer (cls : Fin 3) (unit : Fin 32) (s : State) : Host.Outcome State Fault Refusal :=
  .next (s.onDev (fun d => d.backgroundDefer cls.val unit.val))

/-- HBM_REFRESH (R631). -/
def execHbmRefresh (unit : Fin 32) (s : State) : Host.Outcome State Fault Refusal :=
  .next (s.onDev (fun d => d.hbmRefresh unit.val))

/-- CALIBRATION (R631). -/
def execCalibration (unit : Fin 32) (s : State) : Host.Outcome State Fault Refusal :=
  .next (s.onDev (fun d => d.calibration unit.val))

end Sys2Proof.Machine
end

