-- ==== Sys2Proof/Machine/ExecExtents.lean ====
section
/-!
DEFINITION. Meanings: Extent commands and HDM decoders (02).
Each hands its operands to the device's operation of the cited rule.
-/

namespace Sys2Proof.Machine

/-- ASSIGN (R62). -/
def execAssign (chamber : Fin 16) (s : State) : Host.Outcome State Fault Refusal :=
  .next (s.onDev (fun d => (d.touch 228).assign chamber.val))

/-- SEAL (R60). -/
def execSeal (s : State) : Host.Outcome State Fault Refusal :=
  .next (s.onDev (fun d => (d.touch 228).seal))

/-- FREE (R60). -/
def execFree (s : State) : Host.Outcome State Fault Refusal :=
  .next (s.onDev (fun d => (d.touch 228).freeCmd))

/-- LEND_ATTACH (R63). -/
def execLendAttach (s : State) : Host.Outcome State Fault Refusal :=
  .next (s.onDev (fun d => (d.touch 228).lendAttach))

/-- REMOTE_ATTACH (R71). -/
def execRemoteAttach (s : State) : Host.Outcome State Fault Refusal :=
  .next (s.onDev (fun d => (d.touch 228).remoteAttach))

/-- DETACH (R58). -/
def execDetach (s : State) : Host.Outcome State Fault Refusal :=
  .next (s.onDev (fun d => (d.touch 228).detach))

/-- EXT_CMD_BAD_OP (R71). -/
def execExtCmdBadOp (s : State) : Host.Outcome State Fault Refusal :=
  .next (s.onDev (fun d => (d.touch 228).extCommand 0 0))

/-- EXTENT_ZEROING_DONE (R757). -/
def execExtentZeroingDone (s : State) : Host.Outcome State Fault Refusal :=
  .next (s.onDev (fun d => d.extZeroed.laterGo))

/-- EXTENT_DRAIN_DONE (R60). -/
def execExtentDrainDone (s : State) : Host.Outcome State Fault Refusal :=
  .next (s.onDev (fun d => d.extDrained.laterGo))

/-- HDM_COMMIT (R76). -/
def execHdmCommit (port : Fin 16) (dec : Fin 8) (base : BitVec 52) (size : BitVec 64) (s : State) : Host.Outcome State Fault Refusal :=
  .next (s.onDev (fun d => (d.usePort port.val).hdmCommit port.val dec.val base.toNat size.toNat))

end Sys2Proof.Machine
end

