-- ==== Sys2Proof/Machine/ExecFlow.lean ====
section
/-!
DEFINITION. Meanings: Flowstone descriptors (10).
Each hands its operands to the device's operation of the cited rule.
-/

namespace Sys2Proof.Machine

/-- COMPRESS (R414). -/
def execCompress (id : Nat) (s : State) : Host.Outcome State Fault Refusal :=
  .next (s.onDev (fun d => (d.useBarrow id).compress id))

/-- EXPAND (R415). -/
def execExpand (id : Nat) (s : State) : Host.Outcome State Fault Refusal :=
  .next (s.onDev (fun d => (d.useBarrow id).expand id))

/-- TABLES (R409). -/
def execTables (id : Nat) (s : State) : Host.Outcome State Fault Refusal :=
  .next (s.onDev (fun d => d.tables id))

/-- TABLES_INSTALL (R410). -/
def execTablesInstall (id : Nat) (s : State) : Host.Outcome State Fault Refusal :=
  .next (s.onDev (fun d => d.tablesInstall id))

end Sys2Proof.Machine
end

