-- ==== Sys2Proof/Machine/ExecGallery.lean ====
section
/-!
DEFINITION. Meanings: Gallery search and upkeep (13).
Each hands its operands to the device's operation of the cited rule.
-/

namespace Sys2Proof.Machine

/-- SEARCH (R527). -/
def execSearch (id : Nat) (s : State) : Host.Outcome State Fault Refusal :=
  .next (s.onDev (fun d => d.search id |>.endGone))

/-- GALLERY_WAIT_TIMEOUT (R531). -/
def execGalleryWaitTimeout (id : Nat) (s : State) : Host.Outcome State Fault Refusal :=
  .next (s.onDev (fun d => d.galleryWait id |>.endGone))

/-- INSERT (R536). -/
def execInsert (id : Nat) (s : State) : Host.Outcome State Fault Refusal :=
  .next (s.onDev (fun d => d.galInsert id |>.endGone))

/-- DELETE (R537). -/
def execDelete (id : Nat) (s : State) : Host.Outcome State Fault Refusal :=
  .next (s.onDev (fun d => d.galDelete id |>.endGone))

/-- COMPACT (R538). -/
def execCompact (id : Nat) (s : State) : Host.Outcome State Fault Refusal :=
  .next (s.onDev (fun d => d.compact id |>.endGone))

/-- COMPACT_LEAF_START (R539). -/
def execCompactLeafStart (id : Nat) (s : State) : Host.Outcome State Fault Refusal :=
  .next (s.onDev (fun d => d.compactLeaf id |>.endGone))

/-- GQRY (R534). -/
def execGqry (port : Fin 16) (msg : Msg) (s : State) : Host.Outcome State Fault Refusal :=
  .next (s.onDev (fun d => (d.usePort port.val).gqry port.val msg |>.endGone))

/-- GRSP (R535). -/
def execGrsp (port : Fin 16) (msg : Msg) (s : State) : Host.Outcome State Fault Refusal :=
  .next (s.onDev (fun d => (d.usePort port.val).grsp port.val msg |>.endGone))

/-- GAL_CACHE_CLR (R544). -/
def execGalCacheClr (chamber : Fin 16) (s : State) : Host.Outcome State Fault Refusal :=
  .next (s.onDev (fun d => (d.touch 228).galCacheClr chamber.val))

end Sys2Proof.Machine
end

