-- ==== Sys2Proof/Machine/ExecHoards.lean ====
section
/-!
DEFINITION. Meanings: Hoards, their index and the handoff (11).
Each hands its operands to the device's operation of the cited rule.
-/

namespace Sys2Proof.Machine

/-- CREATE (R442). -/
def execCreate (id : Nat) (s : State) : Host.Outcome State Fault Refusal :=
  .next (s.onDev (fun d => d.hoardCreate id |>.endGone))

/-- APPEND (R444). -/
def execAppend (id : Nat) (s : State) : Host.Outcome State Fault Refusal :=
  .next (s.onDev (fun d => d.hoardAppend id |>.endGone))

/-- HOARD_SEAL (R445). -/
def execHoardSeal (id : Nat) (s : State) : Host.Outcome State Fault Refusal :=
  .next (s.onDev (fun d => d.hoardSeal id |>.endGone))

/-- HOARD_ATTEND (R450). -/
def execHoardAttend (id : Nat) (s : State) : Host.Outcome State Fault Refusal :=
  .next (s.onDev (fun d => d.hoardAttend id |>.endGone))

/-- ATTEND_FALLBACK_WAIT (R452). -/
def execAttendFallbackWait (id : Nat) (s : State) : Host.Outcome State Fault Refusal :=
  .next (s.onDev (fun d => d.attendWait id |>.endGone))

/-- FETCH (R447). -/
def execFetch (id : Nat) (s : State) : Host.Outcome State Fault Refusal :=
  .next (s.onDev (fun d => d.hoardFetch id |>.endGone))

/-- DROP (R448). -/
def execDrop (id : Nat) (s : State) : Host.Outcome State Fault Refusal :=
  .next (s.onDev (fun d => d.hoardDrop id |>.endGone))

/-- HOARD_PAGES_FREE (R448). -/
def execHoardPagesFree (chamber : Fin 16) (s : State) : Host.Outcome State Fault Refusal :=
  .next (s.onDev (fun d => d.hoardPagesFree chamber.val |>.endGone))

/-- PIN (R448). -/
def execPin (id : Nat) (s : State) : Host.Outcome State Fault Refusal :=
  .next (s.onDev (fun d => d.hoardPin id |>.endGone))

/-- RELINK (R446). -/
def execRelink (id : Nat) (s : State) : Host.Outcome State Fault Refusal :=
  .next (s.onDev (fun d => d.relink id |>.endGone))

/-- HREQ (R437). -/
def execHreq (port : Fin 16) (msg : Msg) (s : State) : Host.Outcome State Fault Refusal :=
  .next (s.onDev (fun d => (d.usePort port.val).hreq port.val msg |>.endGone))

/-- HRSP (R437). -/
def execHrsp (port : Fin 16) (msg : Msg) (s : State) : Host.Outcome State Fault Refusal :=
  .next (s.onDev (fun d => (d.usePort port.val).hrsp port.val msg |>.endGone))

/-- HXFER (R455). -/
def execHxfer (port : Fin 16) (msg : Msg) (s : State) : Host.Outcome State Fault Refusal :=
  .next (s.onDev (fun d => (d.usePort port.val).hxfer port.val msg |>.endGone))

/-- HCTL_COMMIT_REQ (R455). -/
def execHctlCommitReq (port : Fin 16) (msg : Msg) (s : State) : Host.Outcome State Fault Refusal :=
  .next (s.onDev (fun d => (d.usePort port.val).hctlCommitReq port.val msg |>.endGone))

/-- HCTL_COMMITTED (R455). -/
def execHctlCommitted (port : Fin 16) (msg : Msg) (s : State) : Host.Outcome State Fault Refusal :=
  .next (s.onDev (fun d => (d.usePort port.val).hctlCommitted port.val msg |>.endGone))

/-- HCTL_REFUSED (R456). -/
def execHctlRefused (port : Fin 16) (msg : Msg) (s : State) : Host.Outcome State Fault Refusal :=
  .next (s.onDev (fun d => (d.usePort port.val).hctlRefused port.val msg |>.endGone))

/-- HCTL_QUERY (R456). -/
def execHctlQuery (port : Fin 16) (msg : Msg) (s : State) : Host.Outcome State Fault Refusal :=
  .next (s.onDev (fun d => (d.usePort port.val).hctlQuery port.val msg |>.endGone))

/-- HCTL_ABORT (R456). -/
def execHctlAbort (port : Fin 16) (msg : Msg) (s : State) : Host.Outcome State Fault Refusal :=
  .next (s.onDev (fun d => (d.usePort port.val).hctlAbort port.val msg |>.endGone))

/-- BUCKET_WRITE (R436). -/
def execBucketWrite (chamber : Fin 16) (bucket : Fin 256) (dev : BitVec 8) (prev : BitVec 8) (prevV : Bool) (s : State) : Host.Outcome State Fault Refusal :=
  .next (s.onDev (fun d => (d.touch 228).bucketWrite chamber.val bucket.val dev.toNat prev.toNat prevV |>.endGone))

/-- HANDOFF_TIMEOUT (R456). -/
def execHandoffTimeout (id : Nat) (s : State) : Host.Outcome State Fault Refusal :=
  .next (s.onDev (fun d => d.handoffTimeout id |>.endGone))

/-- HANDOFF_QUERY_TIMER (R456). -/
def execHandoffQueryTimer (id : Nat) (s : State) : Host.Outcome State Fault Refusal :=
  .next (s.onDev (fun d => d.handoffQuery id |>.endGone))

end Sys2Proof.Machine
end

