-- ==== Sys2Proof/Machine/ExecLinks.lean ====
section
/-!
DEFINITION. Meanings: Links and the Hub (03).
Each hands its operands to the device's operation of the cited rule.
-/

namespace Sys2Proof.Machine

/-- FLIT_RECEIVE (R94), on a fabric port or on a Haresh link (16, 17; 14 R553, 19 R717). -/
def execFlitReceive (port : Fin 18) (raw : Bytes) (s : State) : Host.Outcome State Fault Refusal :=
  .next (s.onDev (fun d => d.anyFlit port.val raw))

/-- ACK_TIMER (R96), of a fabric port or of a Haresh link (16, 17; 14 R553). -/
def execAckTimer (port : Fin 18) (s : State) : Host.Outcome State Fault Refusal :=
  .next (s.onDev (fun d => d.ackTimer port.val))

/-- RETRAIN_DONE (R101). -/
def execRetrainDone (port : Fin 16) (s : State) : Host.Outcome State Fault Refusal :=
  .next (s.onDev (fun d => d.retrainDone port.val))

/-- LANE_LOSS_OF_LOCK (R102). -/
def execLaneLossOfLock (port : Fin 16) (lane : Fin 10) (s : State) : Host.Outcome State Fault Refusal :=
  .next (s.onDev (fun d => d.laneLock port.val lane.val))

/-- LANE_FEC_WINDOW (R102). -/
def execLaneFecWindow (port : Fin 16) (lane : Fin 10) (s : State) : Host.Outcome State Fault Refusal :=
  .next (s.onDev (fun d => d.laneWindow port.val lane.val))

/-- PORT_TRAINING_DONE (R101). -/
def execPortTrainingDone (port : Fin 16) (ok : Bool) (width4 : Bool) (rate : BitVec 2) (s : State) : Host.Outcome State Fault Refusal :=
  .next (s.onDev (fun d => d.trained port.val ok width4 rate.toNat))

/-- TRAINING_TIMEOUT (R101). -/
def execTrainingTimeout (port : Fin 16) (s : State) : Host.Outcome State Fault Refusal :=
  .next (s.onDev (fun d => d.trainTimeout port.val))

/-- HUB_CELL_ARRIVAL (R114). -/
def execHubCellArrival (input : Fin 40) (cell : Cell) (s : State) : Host.Outcome State Fault Refusal :=
  .next (s.onDev (fun d => (d.touch 226).cellArrival input.val cell))

/-- HUB_FRAME_ARRIVAL (R120). -/
def execHubFrameArrival (frame : HubFrame) (s : State) : Host.Outcome State Fault Refusal :=
  .next (s.onDev (fun d => (d.touch 226).frameArrival frame))

/-- HUB_MATCH (R109). -/
def execHubMatch (s : State) : Host.Outcome State Fault Refusal :=
  .next (s.onDev (fun d => d.hubMatch))

/-- HUB_EGRESS (R118). -/
def execHubEgress (s : State) : Host.Outcome State Fault Refusal :=
  .next (s.onDev (fun d => d.hubEgress))

end Sys2Proof.Machine
end

