-- ==== Sys2Proof/Machine/ExecMasons.lean ====
section
/-!
DEFINITION. Meanings: Masons, Lay lists and bricks (09).
Each hands its operands to the device's operation of the cited rule.
-/

namespace Sys2Proof.Machine

/-- RUN (R350). -/
def execRun (id : Nat) (s : State) : Host.Outcome State Fault Refusal :=
  .next (s.onDev (fun d => d.run id))

/-- RUN_START (R352). -/
def execRunStart (id : Nat) (s : State) : Host.Outcome State Fault Refusal :=
  .next (s.onDev (fun d => d.runStart id))

/-- LAYLIST_FETCH_DONE (R353). -/
def execLayListFetchDone (id : Nat) (s : State) : Host.Outcome State Fault Refusal :=
  .next (s.onDev (fun d => d.layFetched id))

/-- NOP_BRICK (R360). -/
def execNopBrick (mason : Fin 144) (s : State) : Host.Outcome State Fault Refusal :=
  .next (s.onDev (fun d => (d.touch mason.val).nopBrick mason.val))

/-- END (R360). -/
def execEndBrick (mason : Fin 144) (s : State) : Host.Outcome State Fault Refusal :=
  .next (s.onDev (fun d => (d.touch mason.val).endBrick mason.val))

/-- SYNC (R356). -/
def execSync (mason : Fin 144) (s : State) : Host.Outcome State Fault Refusal :=
  .next (s.onDev (fun d => (d.touch mason.val).syncBrick mason.val))

/-- LOOP (R361). -/
def execLoop (mason : Fin 144) (s : State) : Host.Outcome State Fault Refusal :=
  .next (s.onDev (fun d => (d.touch mason.val).loopBrick mason.val))

/-- SETA (R360). -/
def execSeta (mason : Fin 144) (s : State) : Host.Outcome State Fault Refusal :=
  .next (s.onDev (fun d => (d.touch mason.val).setaBrick mason.val))

/-- SIGNAL (R360). -/
def execSignal (mason : Fin 144) (s : State) : Host.Outcome State Fault Refusal :=
  .next (s.onDev (fun d => (d.touch mason.val).signalBrick mason.val))

/-- SEMWAIT (R360). -/
def execSemwait (mason : Fin 144) (s : State) : Host.Outcome State Fault Refusal :=
  .next (s.onDev (fun d => (d.touch mason.val).semwaitBrick mason.val))

/-- SEMSET (R360). -/
def execSemset (mason : Fin 144) (s : State) : Host.Outcome State Fault Refusal :=
  .next (s.onDev (fun d => (d.touch mason.val).semsetBrick mason.val))

/-- SEMWAIT_RELEASE (R349). -/
def execSemwaitRelease (mason : Fin 144) (s : State) : Host.Outcome State Fault Refusal :=
  .next (s.onDev (fun d => (d.touch mason.val).semwaitRelease mason.val))

/-- ATOMIC_BRICK (R364). -/
def execAtomicBrick (mason : Fin 144) (s : State) : Host.Outcome State Fault Refusal :=
  .next (s.onDev (fun d => (d.touch mason.val).atomicBrick mason.val))

/-- TLOAD (R363). -/
def execTload (mason : Fin 144) (s : State) : Host.Outcome State Fault Refusal :=
  .next (s.onDev (fun d => (d.touch mason.val).tloadBrick mason.val))

/-- TSTORE (R363). -/
def execTstore (mason : Fin 144) (s : State) : Host.Outcome State Fault Refusal :=
  .next (s.onDev (fun d => (d.touch mason.val).tstoreBrick mason.val))

/-- TCOPY (R372). -/
def execTcopy (mason : Fin 144) (s : State) : Host.Outcome State Fault Refusal :=
  .next (s.onDev (fun d => (d.touch mason.val).tcopyBrick mason.val))

/-- MMA (R366). -/
def execMma (mason : Fin 144) (s : State) : Host.Outcome State Fault Refusal :=
  .next (s.onDev (fun d => (d.touch mason.val).mmaBrick mason.val))

/-- ACCST (R368). -/
def execAccst (mason : Fin 144) (s : State) : Host.Outcome State Fault Refusal :=
  .next (s.onDev (fun d => (d.touch mason.val).accstBrick mason.val))

/-- ACCLD (R368). -/
def execAccld (mason : Fin 144) (s : State) : Host.Outcome State Fault Refusal :=
  .next (s.onDev (fun d => (d.touch mason.val).accldBrick mason.val))

/-- VOP (R371). -/
def execVop (mason : Fin 144) (s : State) : Host.Outcome State Fault Refusal :=
  .next (s.onDev (fun d => (d.touch mason.val).vopBrick mason.val))

/-- VRED (R372). -/
def execVred (mason : Fin 144) (s : State) : Host.Outcome State Fault Refusal :=
  .next (s.onDev (fun d => (d.touch mason.val).vredBrick mason.val))

/-- ATTEND_BRICK (R370). -/
def execAttendBrick (mason : Fin 144) (s : State) : Host.Outcome State Fault Refusal :=
  .next (s.onDev (fun d => (d.touch mason.val).attendBrick mason.val))

/-- BRICK_DONE (R355). -/
def execBrickDone (mason : Fin 144) (unit : Fin 4) (s : State) : Host.Outcome State Fault Refusal :=
  .next (s.onDev (fun d => (d.touch mason.val).brickDone mason.val unit.val))

/-- BRICK_TIMEOUT (R383). -/
def execBrickTimeout (mason : Fin 144) (s : State) : Host.Outcome State Fault Refusal :=
  .next (s.onDev (fun d => d.brickTimeout mason.val))

/-- RUN_COMPLETE (R354). -/
def execRunComplete (id : Nat) (s : State) : Host.Outcome State Fault Refusal :=
  .next (s.onDev (fun d => d.runComplete id))

/-- SEM_WRITE (R388). -/
def execSemWrite (course : Fin 16) (sem : Fin 64) (value : BitVec 32) (s : State) : Host.Outcome State Fault Refusal :=
  .next (s.onDev (fun d => (d.touch 227).semWrite course.val sem.val value.toNat))

end Sys2Proof.Machine
end

