-- ==== Sys2Proof/Machine/ExecMortar.lean ====
section
/-!
DEFINITION. Meanings: Mortar and CXL messages at the home, the requester and the attach device (04).
Each hands its operands to the device's operation of the cited rule.
-/

namespace Sys2Proof.Machine

/-- RDSHARED (R152). -/
def execRdShared (port : Fin 16) (msg : Msg) (s : State) : Host.Outcome State Fault Refusal :=
  .next (s.onDev (fun d => (d.usePort port.val).rdShared port.val msg))

/-- RDOWN (R152). -/
def execRdOwn (port : Fin 16) (msg : Msg) (s : State) : Host.Outcome State Fault Refusal :=
  .next (s.onDev (fun d => (d.usePort port.val).rdOwn port.val msg))

/-- RDONCE (R152). -/
def execRdOnce (port : Fin 16) (msg : Msg) (s : State) : Host.Outcome State Fault Refusal :=
  .next (s.onDev (fun d => (d.usePort port.val).rdOnce port.val msg))

/-- WRLINE (R152). -/
def execWrLine (port : Fin 16) (msg : Msg) (s : State) : Host.Outcome State Fault Refusal :=
  .next (s.onDev (fun d => (d.usePort port.val).wrLineMsg port.val msg))

/-- WRPARTIAL (R152). -/
def execWrPartial (port : Fin 16) (msg : Msg) (s : State) : Host.Outcome State Fault Refusal :=
  .next (s.onDev (fun d => (d.usePort port.val).wrPartial port.val msg))

/-- ATOMIC (R176). -/
def execAtomic (port : Fin 16) (msg : Msg) (s : State) : Host.Outcome State Fault Refusal :=
  .next (s.onDev (fun d => (d.usePort port.val).atomicMsg port.val msg))

/-- SWEEP (R158). -/
def execSweep (port : Fin 16) (msg : Msg) (s : State) : Host.Outcome State Fault Refusal :=
  .next (s.onDev (fun d => (d.usePort port.val).sweepMsg port.val msg))

/-- FENCE (R175). -/
def execFence (port : Fin 16) (msg : Msg) (s : State) : Host.Outcome State Fault Refusal :=
  .next (s.onDev (fun d => (d.usePort port.val).fenceMsg port.val msg))

/-- EVICT (R156). -/
def execEvict (port : Fin 16) (msg : Msg) (s : State) : Host.Outcome State Fault Refusal :=
  .next (s.onDev (fun d => (d.usePort port.val).evictMsg port.val msg |>.revokesGo))

/-- RECALL (R134). -/
def execRecallMsg (port : Fin 16) (msg : Msg) (s : State) : Host.Outcome State Fault Refusal :=
  .next (s.onDev (fun d => (d.usePort port.val).recallFor port.val msg))

/-- INVAL (R134). -/
def execInvalMsg (port : Fin 16) (msg : Msg) (s : State) : Host.Outcome State Fault Refusal :=
  .next (s.onDev (fun d => (d.usePort port.val).invalFor port.val msg))

/-- RETRY (R163). -/
def execRetry (port : Fin 16) (msg : Msg) (s : State) : Host.Outcome State Fault Refusal :=
  .next (s.onDev (fun d => (d.usePort port.val).retryMsg port.val msg))

/-- GRANT (R134). -/
def execGrant (port : Fin 16) (msg : Msg) (s : State) : Host.Outcome State Fault Refusal :=
  .next (s.onDev (fun d => (d.usePort port.val).grantMsg port.val msg))

/-- DATA (R134). -/
def execData (port : Fin 16) (msg : Msg) (s : State) : Host.Outcome State Fault Refusal :=
  .next (s.onDev (fun d => (d.usePort port.val).dataArrives port.val msg |>.revokesGo))

/-- POISONDATA (R64). -/
def execPoisonData (port : Fin 16) (msg : Msg) (s : State) : Host.Outcome State Fault Refusal :=
  .next (s.onDev (fun d => (d.usePort port.val).poisonArrives port.val msg |>.revokesGo))

/-- ACK (R174). -/
def execAck (port : Fin 16) (msg : Msg) (s : State) : Host.Outcome State Fault Refusal :=
  .next (s.onDev (fun d => (d.usePort port.val).ackArrives port.val msg |>.revokesGo))

/-- SWEEP_SCAN_DONE (R159). -/
def execSweepScanDone (s : State) : Host.Outcome State Fault Refusal :=
  .next (s.onDev (fun d => d.scanDone))

/-- TIER_SERVICE_DONE (R186). -/
def execTierServiceDone (id : Nat) (errs : List LineErr) (s : State) : Host.Outcome State Fault Refusal :=
  .next (s.onDev (fun d => d.tierServiceDone id errs |>.revokesGo))

/-- RECALL_TIMEOUT (R172). -/
def execRecallTimeout (line : Nat) (agent : BitVec 16) (s : State) : Host.Outcome State Fault Refusal :=
  .next (s.onDev (fun d => d.recallTimeout line agent.toNat |>.revokesGo))

/-- INVAL_TIMEOUT (R173). -/
def execInvalTimeout (line : Nat) (agent : BitVec 16) (s : State) : Host.Outcome State Fault Refusal :=
  .next (s.onDev (fun d => d.invalTimeout line agent.toNat |>.revokesGo))

/-- REQ_TIMEOUT (R174). -/
def execReqTimeout (src : BitVec 16) (tag : BitVec 20) (s : State) : Host.Outcome State Fault Refusal :=
  .next (s.onDev (fun d => d.reqTimeout src.toNat tag.toNat |>.revokesGo))

/-- TICKET_EXPIRE (R164). -/
def execTicketExpire (ticket : Nat) (s : State) : Host.Outcome State Fault Refusal :=
  .next (s.onDev (fun d => d.ticketExpire ticket))

/-- HOLD (R167). -/
def execHold (id : Nat) (s : State) : Host.Outcome State Fault Refusal :=
  .next (s.onDev (fun d => d.holdDue id))

/-- FENCE_COMPLETE (R175). -/
def execFenceComplete (agent : BitVec 16) (s : State) : Host.Outcome State Fault Refusal :=
  .next (s.onDev (fun d => d.fenceComplete agent.toNat))

/-- RELEASE_ATOMIC_SEND (R210). -/
def execReleaseAtomicSend (id : Nat) (s : State) : Host.Outcome State Fault Refusal :=
  .next (s.onDev (fun d => d.releaseSend id))

/-- MEMRD (R178). -/
def execMemRd (port : Fin 16) (req : CxlReq) (s : State) : Host.Outcome State Fault Refusal :=
  .next (s.onDev (fun d => (d.usePort port.val).memRd port.val req))

/-- MEMRDDATA (R178). -/
def execMemRdData (port : Fin 16) (req : CxlReq) (s : State) : Host.Outcome State Fault Refusal :=
  .next (s.onDev (fun d => (d.usePort port.val).memRdData port.val req))

/-- MEMWR (R178). -/
def execMemWr (port : Fin 16) (req : CxlReq) (s : State) : Host.Outcome State Fault Refusal :=
  .next (s.onDev (fun d => (d.usePort port.val).memWr port.val req))

/-- MEMWRPTL (R178). -/
def execMemWrPtl (port : Fin 16) (req : CxlReq) (s : State) : Host.Outcome State Fault Refusal :=
  .next (s.onDev (fun d => (d.usePort port.val).memWrPtl port.val req))

/-- MEMCLNEVCT (R178). -/
def execMemClnEvct (port : Fin 16) (req : CxlReq) (s : State) : Host.Outcome State Fault Refusal :=
  .next (s.onDev (fun d => (d.usePort port.val).memClnEvct port.val req))

/-- MEMINV (R178). -/
def execMemInv (port : Fin 16) (req : CxlReq) (s : State) : Host.Outcome State Fault Refusal :=
  .next (s.onDev (fun d => (d.usePort port.val).memInv port.val req))

/-- MEMSPECRD (R178). -/
def execMemSpecRd (s : State) : Host.Outcome State Fault Refusal :=
  .next (s.onDev (fun d => d))

/-- BIRSPS (R178). -/
def execBiRspS (port : Fin 16) (req : CxlReq) (s : State) : Host.Outcome State Fault Refusal :=
  .next (s.onDev (fun d => (d.usePort port.val).biRspS port.val req |>.revokesGo))

/-- BIRSPI (R178). -/
def execBiRspI (port : Fin 16) (req : CxlReq) (s : State) : Host.Outcome State Fault Refusal :=
  .next (s.onDev (fun d => (d.usePort port.val).biRspI port.val req |>.revokesGo))

/-- BICONFLICT (R178). -/
def execBiConflict (port : Fin 16) (req : CxlReq) (s : State) : Host.Outcome State Fault Refusal :=
  .next (s.onDev (fun d => (d.usePort port.val).biConflict port.val req))

/-- BICONFLICTACK (R178). -/
def execBiConflictAck (s : State) : Host.Outcome State Fault Refusal :=
  .next (s.onDev (fun d => d))

end Sys2Proof.Machine
end

