-- ==== Sys2Proof/Machine/ExecNetwork.lean ====
section
/-!
DEFINITION. Meanings: Ethernet, gateways and the Portal (14).
Each hands its operands to the device's operation of the cited rule.
-/

namespace Sys2Proof.Machine

/-- ETH_FRAME_RECEIVE (R547). -/
def execEthFrameReceive (port : Fin 8) (frame : EthFrame) (s : State) : Host.Outcome State Fault Refusal :=
  .next (s.onDev (fun d => (d.useEth port.val).ethReceive port.val frame))

/-- ARP_ND_ECHO (R546). -/
def execArpNdEcho (port : Fin 8) (frame : EthFrame) (s : State) : Host.Outcome State Fault Refusal :=
  .next (s.onDev (fun d => (d.useEth port.val).arpNdEcho port.val frame))

/-- PFC_PAUSE_RECEIVE (R549). -/
def execPfcPauseReceive (port : Fin 8) (prio : Fin 8) (quanta : BitVec 16) (s : State) : Host.Outcome State Fault Refusal :=
  .next (s.onDev (fun d => d.pfcPause port.val prio.val quanta.toNat))

/-- RDMA_READ (R555). -/
def execRdmaRead (port : Fin 8) (frame : EthFrame) (s : State) : Host.Outcome State Fault Refusal :=
  .next (s.onDev (fun d => (d.useEth port.val).rdmaRead port.val frame))

/-- RDMA_WRITE (R555). -/
def execRdmaWrite (port : Fin 8) (frame : EthFrame) (s : State) : Host.Outcome State Fault Refusal :=
  .next (s.onDev (fun d => (d.useEth port.val).rdmaWrite port.val frame))

/-- RDMA_READ_RESPONSE (R556). -/
def execRdmaReadResponse (port : Fin 8) (frame : EthFrame) (s : State) : Host.Outcome State Fault Refusal :=
  .next (s.onDev (fun d => (d.useEth port.val).rdmaReadResponse port.val frame))

/-- ROCE_ACK (R551). -/
def execRoceAck (port : Fin 8) (frame : EthFrame) (s : State) : Host.Outcome State Fault Refusal :=
  .next (s.onDev (fun d => (d.useEth port.val).roceAck port.val frame))

/-- ROCE_NAK (R551). -/
def execRoceNak (port : Fin 8) (frame : EthFrame) (s : State) : Host.Outcome State Fault Refusal :=
  .next (s.onDev (fun d => (d.useEth port.val).roceNak port.val frame))

/-- CNP (R550). -/
def execCnp (port : Fin 8) (frame : EthFrame) (s : State) : Host.Outcome State Fault Refusal :=
  .next (s.onDev (fun d => (d.useEth port.val).cnp port.val frame))

/-- RATE_INCREASE_TIMER (R550). -/
def execRateIncreaseTimer (qp : Fin 4096) (s : State) : Host.Outcome State Fault Refusal :=
  .next (s.onDev (fun d => d.rateIncrease qp.val))

/-- QP_RETRANSMIT_TIMEOUT (R551). -/
def execQpRetransmitTimeout (qp : Fin 4096) (s : State) : Host.Outcome State Fault Refusal :=
  .next (s.onDev (fun d => d.qpTimeout qp.val))

/-- QP_RESET (R572). -/
def execQpReset (qp : Fin 4096) (s : State) : Host.Outcome State Fault Refusal :=
  .next (s.onDev (fun d => (d.touch 228).qpReset qp.val))

/-- QP_RTS (R572). -/
def execQpRts (qp : Fin 4096) (s : State) : Host.Outcome State Fault Refusal :=
  .next (s.onDev (fun d => (d.touch 228).qpRts qp.val))

/-- WFLUSH (R560). -/
def execWflush (id : Nat) (s : State) : Host.Outcome State Fault Refusal :=
  .next (s.onDev (fun d => d.wflush id))

/-- WINVAL (R560). -/
def execWinval (id : Nat) (s : State) : Host.Outcome State Fault Refusal :=
  .next (s.onDev (fun d => d.winval id))

/-- PORTAL_V2_REQUEST (R566). -/
def execPortalV2Request (port : Fin 8) (frame : EthFrame) (s : State) : Host.Outcome State Fault Refusal :=
  .next (s.onDev (fun d => (d.useEth port.val).portalV2 port.val frame))

/-- PORTAL_V1_REQUEST (R569). -/
def execPortalV1Request (port : Fin 8) (frame : EthFrame) (s : State) : Host.Outcome State Fault Refusal :=
  .next (s.onDev (fun d => (d.useEth port.val).portalV1 port.val frame))

/-- PORTAL_REPLY (R566). -/
def execPortalReply (key : Nat) (s : State) : Host.Outcome State Fault Refusal :=
  .next (s.onDev (fun d => d.portalReply key))

/-- REPLY_CACHE_EXPIRE (R568). -/
def execReplyCacheExpire (src : Nat) (sport : BitVec 16) (reqid : Nat) (s : State) : Host.Outcome State Fault Refusal :=
  .next (s.onDev (fun d => d.cacheExpire src sport.toNat reqid))

/-- PTP_EVENT_MESSAGE (R552). -/
def execPtpEventMessage (port : Fin 8) (frame : EthFrame) (s : State) : Host.Outcome State Fault Refusal :=
  .next (s.onDev (fun d => (d.useEth port.val).ptpEvent port.val frame))

end Sys2Proof.Machine
end

