-- ==== Sys2Proof/Machine/ExecPower.lean ====
section
/-!
DEFINITION. Meanings: Power, clocks, resets and the package (18, 20).
Each hands its operands to the device's operation of the cited rule.
-/

namespace Sys2Proof.Machine

/-- POWER_APPLIED (R741). -/
def execPowerApplied (modules : List Nat) (s : State) : Host.Outcome State Fault Refusal :=
  .next (s.onPkg (powerApplied modules))

/-- RESET_N_RELEASE (R743). -/
def execResetNRelease (s : State) : Host.Outcome State Fault Refusal :=
  .next (s.onPkg resetRelease)

/-- RESET_N_HOLD (R743). -/
def execResetNHold (s : State) : Host.Outcome State Fault Refusal :=
  .next (s.onPkg resetHold)

/-- PG_RISE (R741). -/
def execPgRise (rail : Fin 9) (s : State) : Host.Outcome State Fault Refusal :=
  .next (s.onPkg (pgRise rail))

/-- PG_FALL (R742). -/
def execPgFall (rail : Fin 9) (s : State) : Host.Outcome State Fault Refusal :=
  .next (s.onPkg (pgFall rail))

/-- PG_TIMEOUT (R742). -/
def execPgTimeout (rail : Fin 9) (s : State) : Host.Outcome State Fault Refusal :=
  .next (s.onPkg (pgTimeout rail))

/-- AON_UNDERVOLTAGE (R744). -/
def execAonUndervoltage (s : State) : Host.Outcome State Fault Refusal :=
  .next (s.onPkg aonUndervoltage)

/-- READY_SIGNAL (R700). -/
def execReadySignal (domain : Fin 264) (s : State) : Host.Outcome State Fault Refusal :=
  .next (s.onDev (fun d => d.readySignal domain.val))

/-- RISE_TIMEOUT (R701). -/
def execRiseTimeout (domain : Fin 264) (s : State) : Host.Outcome State Fault Refusal :=
  .next (s.onPkg (riseLate domain.val))

/-- CLOCK_FAULT (R692). -/
def execClockFault (refLost : Bool) (s : State) : Host.Outcome State Fault Refusal :=
  .next (s.onDev (fun d => d.clockFault refLost))

/-- SHADE_IDLE (R696). -/
def execShadeIdle (domain : Fin 264) (s : State) : Host.Outcome State Fault Refusal :=
  .next (s.onDev (fun d => d.shadeIdle domain.val))

/-- DIM_IDLE (R696). -/
def execDimIdle (domain : Fin 264) (s : State) : Host.Outcome State Fault Refusal :=
  .next (s.onDev (fun d => d.dimIdle domain.val))

/-- WAKE_N (R698). -/
def execWakeN (s : State) : Host.Outcome State Fault Refusal :=
  .next (s.onDev (fun d => d.wakeN (d.rb .PWR_WAKE_CFG_EDGE)))

/-- HARESH_SIGNAL_DETECT (R698). -/
def execHareshSignalDetect (s : State) : Host.Outcome State Fault Refusal :=
  .next (s.onDev (fun d => d.wakePackage))

/-- DARK (R697). -/
def execDark (s : State) : Host.Outcome State Fault Refusal :=
  .next (s.onDev (fun d => (d.touch 228).dark))

/-- WAKE (R713). -/
def execWake (s : State) : Host.Outcome State Fault Refusal :=
  .next (s.onDev (fun d => (d.touch 228).wakePackage))

/-- COLD_RESET (R703). -/
def execColdReset (s : State) : Host.Outcome State Fault Refusal :=
  .next (s.onDev (fun d => (d.touch 228).pwrRst 1 0))

/-- WARM_RESET (R705). -/
def execWarmReset (s : State) : Host.Outcome State Fault Refusal :=
  .next (s.onDev (fun d => (d.touch 228).pwrRst 2 0))

/-- PORT_RESET (R703). -/
def execPortReset (port : Fin 16) (s : State) : Host.Outcome State Fault Refusal :=
  .next (s.onDev (fun d => (d.touch 228).pwrRst 3 port.val))

/-- INLET_HOT (R755). -/
def execInletHot (s : State) : Host.Outcome State Fault Refusal :=
  .next (s.onDev (fun d => d.inletHot (!d.pwr.hot)))

/-- THERMAL_SAMPLE (R752). -/
def execThermalSample (temps : List Nat) (s : State) : Host.Outcome State Fault Refusal :=
  .next (s.onPkg (thermalSample temps))

end Sys2Proof.Machine
end

