-- ==== Sys2Proof/Machine/ExecRegisters.lean ====
section
/-!
DEFINITION. Meanings: Reads and writes of control space, and timers of the network and the tables (00, 12, 14, 19).
Each hands its operands to the device's operation of the cited rule.
-/

namespace Sys2Proof.Machine

/-- REGISTER_WRITE (R9). -/
def execRegisterWrite (iface : Fin 18) (offset : BitVec 32) (len : Nat) (value : BitVec 64) (s : State) : Host.Outcome State Fault Refusal :=
  .next (s.onDev (fun d => d.registerWrite iface.val offset.toNat len value.toNat |>.endGone))

/-- WIDE_REGISTER_CAPTURE (R724). -/
def execWideRegisterCapture (iface : Fin 18) (offset : BitVec 32) (s : State) : Host.Outcome State Fault Refusal :=
  .next (s.onDev (fun d => d.wideCapture iface.val offset.toNat))

/-- MOVE_GRACE_END (R504). -/
def execMoveGraceEnd (id : Nat) (s : State) : Host.Outcome State Fault Refusal :=
  .next (s.onDev (fun d => d.moveGraceEnd id |>.endGone))

/-- PTP_LOSS_OF_LOCK (R552). -/
def execPtpLossOfLock (s : State) : Host.Outcome State Fault Refusal :=
  .next (s.onDev (fun d => d.ptpLoss))

/-- RECEIVED_PAUSE_EXPIRY (R549). -/
def execReceivedPauseExpiry (port : Fin 8) (prio : Fin 8) (s : State) : Host.Outcome State Fault Refusal :=
  .next (s.onDev (fun d => d.pauseExpiry port.val prio.val))

end Sys2Proof.Machine
end

