-- ==== Sys2Proof/Machine/ExecTables.lean ====
section
/-!
DEFINITION. Meanings: Embedding tables: lookups, scatters, publishes and moves (12).
Each hands its operands to the device's operation of the cited rule.
-/

namespace Sys2Proof.Machine

/-- LOOKUP2 (R488). -/
def execLookup2 (id : Nat) (s : State) : Host.Outcome State Fault Refusal :=
  .next (s.onDev (fun d => d.lookup2 id |>.endGone))

/-- LOOKUP (R489). -/
def execLookup (id : Nat) (s : State) : Host.Outcome State Fault Refusal :=
  .next (s.onDev (fun d => d.lookup id |>.endGone))

/-- SCATTER (R499). -/
def execScatter (id : Nat) (s : State) : Host.Outcome State Fault Refusal :=
  .next (s.onDev (fun d => d.scatter id |>.endGone))

/-- PUBLISH (R483). -/
def execPublish (id : Nat) (s : State) : Host.Outcome State Fault Refusal :=
  .next (s.onDev (fun d => d.publish id |>.endGone))

/-- REPLICATE (R503). -/
def execReplicate (id : Nat) (s : State) : Host.Outcome State Fault Refusal :=
  .next (s.onDev (fun d => d.replicate id |>.endGone))

/-- MIGRATE (R505). -/
def execMigrate (id : Nat) (s : State) : Host.Outcome State Fault Refusal :=
  .next (s.onDev (fun d => d.migrate id |>.endGone))

/-- TLKUP (R493). -/
def execTlkup (port : Fin 16) (msg : Msg) (s : State) : Host.Outcome State Fault Refusal :=
  .next (s.onDev (fun d => (d.usePort port.val).tlkup port.val msg |>.endGone))

/-- TRSP (R493). -/
def execTrsp (port : Fin 16) (msg : Msg) (s : State) : Host.Outcome State Fault Refusal :=
  .next (s.onDev (fun d => (d.usePort port.val).trsp port.val msg |>.endGone))

/-- TGRAD (R500). -/
def execTgrad (port : Fin 16) (msg : Msg) (s : State) : Host.Outcome State Fault Refusal :=
  .next (s.onDev (fun d => (d.usePort port.val).tgrad port.val msg |>.endGone))

/-- TCTL_STAGE (R483). -/
def execTctlStage (port : Fin 16) (msg : Msg) (s : State) : Host.Outcome State Fault Refusal :=
  .next (s.onDev (fun d => (d.usePort port.val).tctlStage port.val msg |>.endGone))

/-- TCTL_FLIP (R483). -/
def execTctlFlip (port : Fin 16) (msg : Msg) (s : State) : Host.Outcome State Fault Refusal :=
  .next (s.onDev (fun d => (d.usePort port.val).tctlFlip port.val msg |>.endGone))

/-- TCTL_ABANDON (R484). -/
def execTctlAbandon (port : Fin 16) (msg : Msg) (s : State) : Host.Outcome State Fault Refusal :=
  .next (s.onDev (fun d => (d.usePort port.val).tctlAbandon port.val msg |>.endGone))

/-- TCTL_QUERY (R485). -/
def execTctlQuery (port : Fin 16) (msg : Msg) (s : State) : Host.Outcome State Fault Refusal :=
  .next (s.onDev (fun d => (d.usePort port.val).tctlQuery port.val msg |>.endGone))

/-- TCTL_RESERVE (R505). -/
def execTctlReserve (port : Fin 16) (msg : Msg) (s : State) : Host.Outcome State Fault Refusal :=
  .next (s.onDev (fun d => (d.usePort port.val).tctlReserve port.val msg |>.endGone))

/-- TCTL_COPY (R505). -/
def execTctlCopy (port : Fin 16) (msg : Msg) (s : State) : Host.Outcome State Fault Refusal :=
  .next (s.onDev (fun d => (d.usePort port.val).tctlCopy port.val msg |>.endGone))

/-- TCTL_LOG (R506). -/
def execTctlLog (port : Fin 16) (msg : Msg) (s : State) : Host.Outcome State Fault Refusal :=
  .next (s.onDev (fun d => (d.usePort port.val).tctlLog port.val msg |>.endGone))

/-- TCTL_ROUTE (R505). -/
def execTctlRoute (port : Fin 16) (msg : Msg) (s : State) : Host.Outcome State Fault Refusal :=
  .next (s.onDev (fun d => (d.usePort port.val).tctlRoute port.val msg |>.endGone))

/-- TCTL_RELEASE (R508). -/
def execTctlRelease (port : Fin 16) (msg : Msg) (s : State) : Host.Outcome State Fault Refusal :=
  .next (s.onDev (fun d => (d.usePort port.val).tctlRelease port.val msg |>.endGone))

/-- TCTL_REPL (R503). -/
def execTctlRepl (port : Fin 16) (msg : Msg) (s : State) : Host.Outcome State Fault Refusal :=
  .next (s.onDev (fun d => (d.usePort port.val).tctlRepl port.val msg |>.endGone))

/-- TCTL_DONE (R483). -/
def execTctlDone (port : Fin 16) (msg : Msg) (s : State) : Host.Outcome State Fault Refusal :=
  .next (s.onDev (fun d => (d.usePort port.val).tctlDone port.val msg |>.endGone))

/-- TCTL_MISMATCH (R484). -/
def execTctlMismatch (port : Fin 16) (msg : Msg) (s : State) : Host.Outcome State Fault Refusal :=
  .next (s.onDev (fun d => (d.usePort port.val).tctlMismatch port.val msg |>.endGone))

/-- TCTL_REFUSED (R508). -/
def execTctlRefused (port : Fin 16) (msg : Msg) (s : State) : Host.Outcome State Fault Refusal :=
  .next (s.onDev (fun d => (d.usePort port.val).tctlRefused port.val msg |>.endGone))

/-- PUBLISH_TIMEOUT (R484). -/
def execPublishTimeout (key : Nat) (s : State) : Host.Outcome State Fault Refusal :=
  .next (s.onDev (fun d => d.publishTimeout key |>.endGone))

/-- FLIP_RESEND_TIMER (R484). -/
def execFlipResendTimer (key : Nat) (s : State) : Host.Outcome State Fault Refusal :=
  .next (s.onDev (fun d => d.flipResend key |>.endGone))

/-- PUBLISH_QUERY_TIMER (R485). -/
def execPublishQueryTimer (key : Nat) (s : State) : Host.Outcome State Fault Refusal :=
  .next (s.onDev (fun d => d.publishQuery key |>.endGone))

/-- VERSION_RETIRE (R486). -/
def execVersionRetire (chamber : Fin 16) (table : BitVec 28) (s : State) : Host.Outcome State Fault Refusal :=
  .next (s.onDev (fun d => d.versionRetire chamber.val table.toNat |>.endGone))

/-- MOVE_TIMEOUT (R508). -/
def execMoveTimeout (key : Nat) (s : State) : Host.Outcome State Fault Refusal :=
  .next (s.onDev (fun d => d.moveTimeout key |>.endGone))

/-- ROUTE_RESEND_TIMER (R508). -/
def execRouteResendTimer (key : Nat) (s : State) : Host.Outcome State Fault Refusal :=
  .next (s.onDev (fun d => d.routeResend key |>.endGone))

/-- SKETCH_DECAY (R501). -/
def execSketchDecay (s : State) : Host.Outcome State Fault Refusal :=
  .next (s.onDev (fun d => d.sketchDecay))

/-- SKETCH_WRITE (R512). -/
def execSketchWrite (slot : Fin 8) (chamber : Fin 16) (table : BitVec 28) (en : Bool) (s : State) : Host.Outcome State Fault Refusal :=
  .next (s.onDev (fun d => (d.touch 228).sketchWrite slot.val chamber.val table.toNat en))

end Sys2Proof.Machine
end

