-- ==== Sys2Proof/Machine/ExecTally.lean ====
section
/-!
DEFINITION. Meanings: Tally, composition and Buttress (17).
Each hands its operands to the device's operation of the cited rule.
-/

namespace Sys2Proof.Machine

/-- TALLY_TICK (R652). -/
def execTallyTick (s : State) : Host.Outcome State Fault Refusal :=
  .next (s.onDev (fun d => (d.useHaresh).tallyTick))

/-- TSCORE (R654). -/
def execTscore (port : Option (Fin 16)) (msg : Msg) (s : State) : Host.Outcome State Fault Refusal :=
  .next (s.onDev (fun d => (d.usePath port).tscore (port.map Fin.val) msg))

/-- TEXPEL (R658). -/
def execTexpel (port : Option (Fin 16)) (msg : Msg) (s : State) : Host.Outcome State Fault Refusal :=
  .next (s.onDev (fun d => (d.usePath port).texpel (port.map Fin.val) msg))

/-- REINSTATE (R663). -/
def execReinstate (device : BitVec 8) (s : State) : Host.Outcome State Fault Refusal :=
  .next (s.onDev (fun d => (d.touch 228).reinstate device.toNat))

/-- EXPEL (R663). -/
def execExpel (device : BitVec 8) (s : State) : Host.Outcome State Fault Refusal :=
  .next (s.onDev (fun d => (d.touch 228).expelCmd device.toNat))

/-- PROBATION (R663). -/
def execProbation (device : BitVec 8) (s : State) : Host.Outcome State Fault Refusal :=
  .next (s.onDev (fun d => (d.touch 228).probationCmd device.toNat))

/-- EMARK (R670). -/
def execEmark (port : Fin 16) (msg : Msg) (s : State) : Host.Outcome State Fault Refusal :=
  .next (s.onDev (fun d => (d.usePort port.val).emark port.val msg))

/-- RERTE (R674). -/
def execRerte (port : Fin 16) (msg : Msg) (s : State) : Host.Outcome State Fault Refusal :=
  .next (s.onDev (fun d => (d.usePort port.val).rerte port.val msg))

/-- LREVOKE (R676). -/
def execLrevoke (port : Fin 16) (msg : Msg) (s : State) : Host.Outcome State Fault Refusal :=
  .next (s.onDev (fun d => (d.usePort port.val).lrevoke port.val msg))

/-- CMP_REVOKE (R675). -/
def execCmpRevoke (first : BitVec 20) (count : BitVec 12) (s : State) : Host.Outcome State Fault Refusal :=
  .next (s.onDev (fun d => (d.touch 228).cmpRevoke first.toNat count.toNat))

/-- REVOKE_TIMEOUT (R676). -/
def execRevokeTimeout (s : State) : Host.Outcome State Fault Refusal :=
  .next (s.onDev (fun d => d.oldestRevokeTimeout))

/-- BMIR (R666). -/
def execBmir (port : Fin 16) (msg : Msg) (s : State) : Host.Outcome State Fault Refusal :=
  .next (s.onDev (fun d => (d.usePort port.val).bmir port.val msg))

/-- BMIR_TIMEOUT (R667). -/
def execBmirTimeout (pair : Fin 64) (bseq : BitVec 32) (s : State) : Host.Outcome State Fault Refusal :=
  .next (s.onDev (fun d => d.bmirTimeout pair.val bseq.toNat))

/-- BUTTRESS_ENABLE (R665). -/
def execButtressEnable (pair : Fin 64) (s : State) : Host.Outcome State Fault Refusal :=
  .next (s.onDev (fun d => (d.touch 228).buttressEnable pair.val))

/-- BUTTRESS_COPY_DONE (R665). -/
def execButtressCopyDone (pair : Fin 64) (s : State) : Host.Outcome State Fault Refusal :=
  .next (s.onDev (fun d => d.buttressCopyDone pair.val))

/-- CMP_STAGE (R672). -/
def execCmpStage (epoch : BitVec 8) (s : State) : Host.Outcome State Fault Refusal :=
  .next (s.onDev (fun d => (d.touch 228).cmpStage epoch.toNat))

/-- CMP_COMMIT (R671). -/
def execCmpCommit (epoch : BitVec 8) (s : State) : Host.Outcome State Fault Refusal :=
  .next (s.onDev (fun d => (d.touch 228).cmpCommit epoch.toNat))

/-- CMP_ABORT (R672). -/
def execCmpAbort (s : State) : Host.Outcome State Fault Refusal :=
  .next (s.onDev (fun d => (d.touch 228).cmpAbort))

/-- GRACE_END (R671). -/
def execGraceEnd (s : State) : Host.Outcome State Fault Refusal :=
  .next (s.onDev (fun d => d.graceEnd))

/-- RESOLVE (R678). -/
def execResolve (winner : BitVec 8) (chamber : Fin 16) (slot : BitVec 20) (s : State) : Host.Outcome State Fault Refusal :=
  .next (s.onDev (fun d => (d.touch 228).cmpResolve winner.toNat chamber.val slot.toNat))

end Sys2Proof.Machine
end

