-- ==== Sys2Proof/Machine/ExecTiers.lean ====
section
/-!
DEFINITION. Meanings: Tiers, settles, schedules and cartridges (07).
Each hands its operands to the device's operation of the cited rule.
-/

namespace Sys2Proof.Machine

/-- COPY (R274). -/
def execCopy (id : Nat) (s : State) : Host.Outcome State Fault Refusal :=
  .next (s.onDev (fun d => (d.useBarrow id).copy id))

/-- PLACE_STAGE (R275). -/
def execPlaceStage (id : Nat) (s : State) : Host.Outcome State Fault Refusal :=
  .next (s.onDev (fun d => d.place id 0))

/-- PLACE_PROMOTE (R275). -/
def execPlacePromote (id : Nat) (s : State) : Host.Outcome State Fault Refusal :=
  .next (s.onDev (fun d => d.place id 1))

/-- PLACE_PIN (R275). -/
def execPlacePin (id : Nat) (s : State) : Host.Outcome State Fault Refusal :=
  .next (s.onDev (fun d => d.place id 2))

/-- PLACE_UNPIN (R275). -/
def execPlaceUnpin (id : Nat) (s : State) : Host.Outcome State Fault Refusal :=
  .next (s.onDev (fun d => d.place id 3))

/-- PLACE_RELEASE (R275). -/
def execPlaceRelease (id : Nat) (s : State) : Host.Outcome State Fault Refusal :=
  .next (s.onDev (fun d => d.place id 4))

/-- FRAME_FILL_DONE (R269). -/
def execFrameFillDone (staging : Bool) (frame : Nat) (bad : BitVec 16) (s : State) : Host.Outcome State Fault Refusal :=
  .next (s.onDev (fun d => d.frameFillDone (if staging then .stage else .promo) frame bad.toNat))

/-- SETTLE (R281). -/
def execSettle (id : Nat) (s : State) : Host.Outcome State Fault Refusal :=
  .next (s.onDev (fun d => d.settle id))

/-- SETTLE_START (R283). -/
def execSettleStart (id : Nat) (s : State) : Host.Outcome State Fault Refusal :=
  .next (s.onDev (fun d => d.settleStart id))

/-- SETTLE_CHUNK_DONE (R283). -/
def execSettleChunkDone (slot : Fin 64) (errs : List LineErr) (bad : List Nat) (s : State) : Host.Outcome State Fault Refusal :=
  .next (s.onDev (fun d => d.settleChunk slot.val errs bad))

/-- SCHEDULE (R276). -/
def execSchedule (id : Nat) (s : State) : Host.Outcome State Fault Refusal :=
  .next (s.onDev (fun d => d.schedule id))

/-- SCHEDULE_ENTRY_TRIGGER (R278). -/
def execScheduleEntryTrigger (id : Nat) (entry : Nat) (s : State) : Host.Outcome State Fault Refusal :=
  .next (s.onDev (fun d => d.schedEntry id entry false))

/-- SCHEDULE_TIMER (R277). -/
def execScheduleTimer (id : Nat) (entry : Nat) (s : State) : Host.Outcome State Fault Refusal :=
  .next (s.onDev (fun d => d.schedEntry id entry true))

/-- CART_TRANSFER (R292). -/
def execCartTransfer (slot : BitVec 4) (target : BitVec 4) (s : State) : Host.Outcome State Fault Refusal :=
  .next (s.onDev (fun d => (d.touch 228).cartTransfer slot.toNat target.toNat))

/-- CART_TAKEOVER (R292). -/
def execCartTakeover (slot : BitVec 4) (target : BitVec 4) (s : State) : Host.Outcome State Fault Refusal :=
  .next (s.onDev (fun d => (d.touch 228).cartTakeover slot.toNat target.toNat))

/-- CART_RETIRE (R292). -/
def execCartRetire (slot : BitVec 4) (s : State) : Host.Outcome State Fault Refusal :=
  .next (s.onDev (fun d => (d.touch 228).cartRetire slot.toNat))

/-- CART_RELEASE (R292). -/
def execCartRelease (slot : BitVec 4) (s : State) : Host.Outcome State Fault Refusal :=
  .next (s.onDev (fun d => (d.touch 228).cartRelease slot.toNat))

/-- CART_CMD_BAD_OP (R299). -/
def execCartCmdBadOp (s : State) : Host.Outcome State Fault Refusal :=
  .next (s.onDev (fun d => (d.touch 228).cartCommand 0 0 0))

/-- TRANSFER_EXTENT_DONE (R292). -/
def execTransferExtentDone (s : State) : Host.Outcome State Fault Refusal :=
  .next (s.onDev (fun d => d.transferExtent))

/-- NVME_COMMAND_DONE (R288). -/
def execNvmeCommandDone (slot : Fin 9) (command : Nat) (bad : BitVec 16) (ident : CartIdent) (s : State) : Host.Outcome State Fault Refusal :=
  .next (s.onDev (fun d => (d.useCart slot.val).nvmeDone slot.val command bad.toNat ident))

/-- CART_CMD_TIMEOUT (R291). -/
def execCartCmdTimeout (slot : Fin 9) (s : State) : Host.Outcome State Fault Refusal :=
  .next (s.onDev (fun d => d.cartTimeout slot.val))

/-- CART_FAILURE_REPORT (R291). -/
def execCartFailureReport (slot : Fin 9) (s : State) : Host.Outcome State Fault Refusal :=
  .next (s.onDev (fun d => d.cartReport slot.val))

/-- CART_REMOVED (R291). -/
def execCartRemoved (slot : Fin 9) (s : State) : Host.Outcome State Fault Refusal :=
  .next (s.onDev (fun d => d.cartRemoved slot.val))

/-- CART_INSERTED (R610). -/
def execCartInserted (slot : Fin 9) (s : State) : Host.Outcome State Fault Refusal :=
  .next (s.onDev (fun d => d.cartInserted slot.val))

/-- CART_LINK_UP (R610). -/
def execCartLinkUp (slot : Fin 9) (s : State) : Host.Outcome State Fault Refusal :=
  .next (s.onDev (fun d => d.cartLinkUp slot.val))

/-- CART_AUTH_TIMEOUT (R610). -/
def execCartAuthTimeout (slot : Fin 9) (s : State) : Host.Outcome State Fault Refusal :=
  .next (s.onDev (fun d => d.authTimeout slot.val))

end Sys2Proof.Machine
end

