-- ==== Sys2Proof/Machine/ExecTranslation.lean ====
section
/-!
DEFINITION. Meanings: Translation and faults (08).
Each hands its operands to the device's operation of the cited rule.
-/

namespace Sys2Proof.Machine

/-- PTE_READ_DONE (R304). -/
def execPteReadDone (id : Nat) (s : State) : Host.Outcome State Fault Refusal :=
  .next (s.onDev (fun d => (d.pteRead id).goOn))

/-- FAULT_BATCH_AGE (R320). -/
def execFaultBatchAge (chamber : Fin 16) (s : State) : Host.Outcome State Fault Refusal :=
  .next (s.onDev (fun d => d.faultBatchAge chamber.val))

/-- FAULT_RESUME (R323). -/
def execFaultResume (chamber : Fin 16) (batch : BitVec 32) (s : State) : Host.Outcome State Fault Refusal :=
  .next (s.onDev (fun d => (d.touch 228).faultResume chamber.val batch.toNat))

/-- FQ_HEAD_WRITE (R338). -/
def execFqHeadWrite (chamber : Fin 16) (head : BitVec 32) (s : State) : Host.Outcome State Fault Refusal :=
  .next (s.onDev (fun d => (d.touch 228).fqHeadWrite chamber.val head.toNat))

/-- XINV (R311). -/
def execXinv (port : Fin 16) (msg : Msg) (s : State) : Host.Outcome State Fault Refusal :=
  .next (s.onDev (fun d => (d.usePort port.val).xinv port.val msg))

/-- INVALIDATE_REGISTER (R312). -/
def execInvalidateRegister (chamber : Fin 16) (page : BitVec 36) (all : Bool) (pages : BitVec 24) (s : State) : Host.Outcome State Fault Refusal :=
  .next (s.onDev (fun d => (d.touch 228).invalidateRegister chamber.val page.toNat all pages.toNat))

/-- XINV_ACK_READY (R313). -/
def execXinvAckReady (chamber : Fin 16) (s : State) : Host.Outcome State Fault Refusal :=
  .next (s.onDev (fun d => d.xinvAckReady chamber.val))

/-- XINV_ACK_TIMEOUT (R313). -/
def execXinvAckTimeout (chamber : Fin 16) (s : State) : Host.Outcome State Fault Refusal :=
  .next (s.onDev (fun d => d.xinvAckTimeout chamber.val))

/-- ROOT_WRITE (R315). -/
def execRootWrite (chamber : Fin 16) (root : BitVec 41) (s : State) : Host.Outcome State Fault Refusal :=
  .next (s.onDev (fun d => (d.touch 228).rootWrite chamber.val root.toNat))

/-- ACCESS_COUNTER_DECAY (R330). -/
def execAccessCounterDecay (s : State) : Host.Outcome State Fault Refusal :=
  .next (s.onDev (fun d => d.counterDecay))

end Sys2Proof.Machine
end

