-- ==== Sys2Proof/Machine/Dispatch.lean ====
section
/-!
DEFINITION. `exec`: one arm for each command, a direct call of its meaning.
-/

namespace Sys2Proof.Machine

def exec (i : Instr) (s : State) : Host.Outcome State Fault Refusal :=
  match i with
  | .assign chamber => Sys2Proof.Machine.execAssign chamber s
  | .seal => Sys2Proof.Machine.execSeal s
  | .free => Sys2Proof.Machine.execFree s
  | .lendAttach => Sys2Proof.Machine.execLendAttach s
  | .remoteAttach => Sys2Proof.Machine.execRemoteAttach s
  | .detach => Sys2Proof.Machine.execDetach s
  | .extCmdBadOp => Sys2Proof.Machine.execExtCmdBadOp s
  | .extentZeroingDone => Sys2Proof.Machine.execExtentZeroingDone s
  | .extentDrainDone => Sys2Proof.Machine.execExtentDrainDone s
  | .hdmCommit port dec base size => Sys2Proof.Machine.execHdmCommit port dec base size s
  | .flitReceive port raw => Sys2Proof.Machine.execFlitReceive port raw s
  | .ackTimer port => Sys2Proof.Machine.execAckTimer port s
  | .retrainDone port => Sys2Proof.Machine.execRetrainDone port s
  | .laneLossOfLock port lane => Sys2Proof.Machine.execLaneLossOfLock port lane s
  | .laneFecWindow port lane => Sys2Proof.Machine.execLaneFecWindow port lane s
  | .portTrainingDone port ok width4 rate => Sys2Proof.Machine.execPortTrainingDone port ok width4 rate s
  | .trainingTimeout port => Sys2Proof.Machine.execTrainingTimeout port s
  | .hubCellArrival input cell => Sys2Proof.Machine.execHubCellArrival input cell s
  | .hubFrameArrival frame => Sys2Proof.Machine.execHubFrameArrival frame s
  | .hubMatch => Sys2Proof.Machine.execHubMatch s
  | .hubEgress => Sys2Proof.Machine.execHubEgress s
  | .rdShared port msg => Sys2Proof.Machine.execRdShared port msg s
  | .rdOwn port msg => Sys2Proof.Machine.execRdOwn port msg s
  | .rdOnce port msg => Sys2Proof.Machine.execRdOnce port msg s
  | .wrLine port msg => Sys2Proof.Machine.execWrLine port msg s
  | .wrPartial port msg => Sys2Proof.Machine.execWrPartial port msg s
  | .atomic port msg => Sys2Proof.Machine.execAtomic port msg s
  | .sweep port msg => Sys2Proof.Machine.execSweep port msg s
  | .fence port msg => Sys2Proof.Machine.execFence port msg s
  | .evict port msg => Sys2Proof.Machine.execEvict port msg s
  | .recallMsg port msg => Sys2Proof.Machine.execRecallMsg port msg s
  | .invalMsg port msg => Sys2Proof.Machine.execInvalMsg port msg s
  | .retry port msg => Sys2Proof.Machine.execRetry port msg s
  | .grant port msg => Sys2Proof.Machine.execGrant port msg s
  | .data port msg => Sys2Proof.Machine.execData port msg s
  | .poisonData port msg => Sys2Proof.Machine.execPoisonData port msg s
  | .ack port msg => Sys2Proof.Machine.execAck port msg s
  | .sweepScanDone => Sys2Proof.Machine.execSweepScanDone s
  | .tierServiceDone id errs => Sys2Proof.Machine.execTierServiceDone id errs s
  | .recallTimeout line agent => Sys2Proof.Machine.execRecallTimeout line agent s
  | .invalTimeout line agent => Sys2Proof.Machine.execInvalTimeout line agent s
  | .reqTimeout src tag => Sys2Proof.Machine.execReqTimeout src tag s
  | .ticketExpire ticket => Sys2Proof.Machine.execTicketExpire ticket s
  | .hold id => Sys2Proof.Machine.execHold id s
  | .fenceComplete agent => Sys2Proof.Machine.execFenceComplete agent s
  | .releaseAtomicSend id => Sys2Proof.Machine.execReleaseAtomicSend id s
  | .memRd port req => Sys2Proof.Machine.execMemRd port req s
  | .memRdData port req => Sys2Proof.Machine.execMemRdData port req s
  | .memWr port req => Sys2Proof.Machine.execMemWr port req s
  | .memWrPtl port req => Sys2Proof.Machine.execMemWrPtl port req s
  | .memClnEvct port req => Sys2Proof.Machine.execMemClnEvct port req s
  | .memInv port req => Sys2Proof.Machine.execMemInv port req s
  | .memSpecRd => Sys2Proof.Machine.execMemSpecRd s
  | .biRspS port req => Sys2Proof.Machine.execBiRspS port req s
  | .biRspI port req => Sys2Proof.Machine.execBiRspI port req s
  | .biConflict port req => Sys2Proof.Machine.execBiConflict port req s
  | .biConflictAck => Sys2Proof.Machine.execBiConflictAck s
  | .chamberEnable chamber => Sys2Proof.Machine.execChamberEnable chamber s
  | .chamberDisable chamber => Sys2Proof.Machine.execChamberDisable chamber s
  | .chamberReset chamber => Sys2Proof.Machine.execChamberReset chamber s
  | .drainTimeout chamber => Sys2Proof.Machine.execDrainTimeout chamber s
  | .disableComplete chamber => Sys2Proof.Machine.execDisableComplete chamber s
  | .chamberResetDone chamber => Sys2Proof.Machine.execChamberResetDone chamber s
  | .doorbell chamber ring tail => Sys2Proof.Machine.execDoorbell chamber ring tail s
  | .completionHeadWrite chamber ring chead => Sys2Proof.Machine.execCompletionHeadWrite chamber ring chead s
  | .ringEnable chamber ring sizeLog2 => Sys2Proof.Machine.execRingEnable chamber ring sizeLog2 s
  | .ringDisable chamber ring => Sys2Proof.Machine.execRingDisable chamber ring s
  | .descriptorAdmit chamber ring => Sys2Proof.Machine.execDescriptorAdmit chamber ring s
  | .descriptorFetchDone id => Sys2Proof.Machine.execDescriptorFetchDone id s
  | .nop id => Sys2Proof.Machine.execNop id s
  | .atomicDescriptor id => Sys2Proof.Machine.execAtomicDescriptor id s
  | .signalAgeTimer chamber ring => Sys2Proof.Machine.execSignalAgeTimer chamber ring s
  | .opTimeout id => Sys2Proof.Machine.execOpTimeout id s
  | .copy id => Sys2Proof.Machine.execCopy id s
  | .placeStage id => Sys2Proof.Machine.execPlaceStage id s
  | .placePromote id => Sys2Proof.Machine.execPlacePromote id s
  | .placePin id => Sys2Proof.Machine.execPlacePin id s
  | .placeUnpin id => Sys2Proof.Machine.execPlaceUnpin id s
  | .placeRelease id => Sys2Proof.Machine.execPlaceRelease id s
  | .frameFillDone staging frame bad => Sys2Proof.Machine.execFrameFillDone staging frame bad s
  | .settle id => Sys2Proof.Machine.execSettle id s
  | .settleStart id => Sys2Proof.Machine.execSettleStart id s
  | .settleChunkDone slot errs bad => Sys2Proof.Machine.execSettleChunkDone slot errs bad s
  | .schedule id => Sys2Proof.Machine.execSchedule id s
  | .scheduleEntryTrigger id entry => Sys2Proof.Machine.execScheduleEntryTrigger id entry s
  | .scheduleTimer id entry => Sys2Proof.Machine.execScheduleTimer id entry s
  | .cartTransfer slot target => Sys2Proof.Machine.execCartTransfer slot target s
  | .cartTakeover slot target => Sys2Proof.Machine.execCartTakeover slot target s
  | .cartRetire slot => Sys2Proof.Machine.execCartRetire slot s
  | .cartRelease slot => Sys2Proof.Machine.execCartRelease slot s
  | .cartCmdBadOp => Sys2Proof.Machine.execCartCmdBadOp s
  | .transferExtentDone => Sys2Proof.Machine.execTransferExtentDone s
  | .nvmeCommandDone slot command bad ident => Sys2Proof.Machine.execNvmeCommandDone slot command bad ident s
  | .cartCmdTimeout slot => Sys2Proof.Machine.execCartCmdTimeout slot s
  | .cartFailureReport slot => Sys2Proof.Machine.execCartFailureReport slot s
  | .cartRemoved slot => Sys2Proof.Machine.execCartRemoved slot s
  | .cartInserted slot => Sys2Proof.Machine.execCartInserted slot s
  | .cartLinkUp slot => Sys2Proof.Machine.execCartLinkUp slot s
  | .cartAuthTimeout slot => Sys2Proof.Machine.execCartAuthTimeout slot s
  | .pteReadDone id => Sys2Proof.Machine.execPteReadDone id s
  | .faultBatchAge chamber => Sys2Proof.Machine.execFaultBatchAge chamber s
  | .faultResume chamber batch => Sys2Proof.Machine.execFaultResume chamber batch s
  | .fqHeadWrite chamber head => Sys2Proof.Machine.execFqHeadWrite chamber head s
  | .xinv port msg => Sys2Proof.Machine.execXinv port msg s
  | .invalidateRegister chamber page all pages => Sys2Proof.Machine.execInvalidateRegister chamber page all pages s
  | .xinvAckReady chamber => Sys2Proof.Machine.execXinvAckReady chamber s
  | .xinvAckTimeout chamber => Sys2Proof.Machine.execXinvAckTimeout chamber s
  | .rootWrite chamber root => Sys2Proof.Machine.execRootWrite chamber root s
  | .accessCounterDecay => Sys2Proof.Machine.execAccessCounterDecay s
  | .run id => Sys2Proof.Machine.execRun id s
  | .runStart id => Sys2Proof.Machine.execRunStart id s
  | .layListFetchDone id => Sys2Proof.Machine.execLayListFetchDone id s
  | .nopBrick mason => Sys2Proof.Machine.execNopBrick mason s
  | .endBrick mason => Sys2Proof.Machine.execEndBrick mason s
  | .sync mason => Sys2Proof.Machine.execSync mason s
  | .loop mason => Sys2Proof.Machine.execLoop mason s
  | .seta mason => Sys2Proof.Machine.execSeta mason s
  | .signal mason => Sys2Proof.Machine.execSignal mason s
  | .semwait mason => Sys2Proof.Machine.execSemwait mason s
  | .semset mason => Sys2Proof.Machine.execSemset mason s
  | .semwaitRelease mason => Sys2Proof.Machine.execSemwaitRelease mason s
  | .atomicBrick mason => Sys2Proof.Machine.execAtomicBrick mason s
  | .tload mason => Sys2Proof.Machine.execTload mason s
  | .tstore mason => Sys2Proof.Machine.execTstore mason s
  | .tcopy mason => Sys2Proof.Machine.execTcopy mason s
  | .mma mason => Sys2Proof.Machine.execMma mason s
  | .accst mason => Sys2Proof.Machine.execAccst mason s
  | .accld mason => Sys2Proof.Machine.execAccld mason s
  | .vop mason => Sys2Proof.Machine.execVop mason s
  | .vred mason => Sys2Proof.Machine.execVred mason s
  | .attendBrick mason => Sys2Proof.Machine.execAttendBrick mason s
  | .brickDone mason unit => Sys2Proof.Machine.execBrickDone mason unit s
  | .brickTimeout mason => Sys2Proof.Machine.execBrickTimeout mason s
  | .runComplete id => Sys2Proof.Machine.execRunComplete id s
  | .semWrite course sem value => Sys2Proof.Machine.execSemWrite course sem value s
  | .compress id => Sys2Proof.Machine.execCompress id s
  | .expand id => Sys2Proof.Machine.execExpand id s
  | .tables id => Sys2Proof.Machine.execTables id s
  | .tablesInstall id => Sys2Proof.Machine.execTablesInstall id s
  | .create id => Sys2Proof.Machine.execCreate id s
  | .append id => Sys2Proof.Machine.execAppend id s
  | .hoardSeal id => Sys2Proof.Machine.execHoardSeal id s
  | .hoardAttend id => Sys2Proof.Machine.execHoardAttend id s
  | .attendFallbackWait id => Sys2Proof.Machine.execAttendFallbackWait id s
  | .fetch id => Sys2Proof.Machine.execFetch id s
  | .drop id => Sys2Proof.Machine.execDrop id s
  | .hoardPagesFree chamber => Sys2Proof.Machine.execHoardPagesFree chamber s
  | .pin id => Sys2Proof.Machine.execPin id s
  | .relink id => Sys2Proof.Machine.execRelink id s
  | .hreq port msg => Sys2Proof.Machine.execHreq port msg s
  | .hrsp port msg => Sys2Proof.Machine.execHrsp port msg s
  | .hxfer port msg => Sys2Proof.Machine.execHxfer port msg s
  | .hctlCommitReq port msg => Sys2Proof.Machine.execHctlCommitReq port msg s
  | .hctlCommitted port msg => Sys2Proof.Machine.execHctlCommitted port msg s
  | .hctlRefused port msg => Sys2Proof.Machine.execHctlRefused port msg s
  | .hctlQuery port msg => Sys2Proof.Machine.execHctlQuery port msg s
  | .hctlAbort port msg => Sys2Proof.Machine.execHctlAbort port msg s
  | .bucketWrite chamber bucket dev prev prevV => Sys2Proof.Machine.execBucketWrite chamber bucket dev prev prevV s
  | .handoffTimeout id => Sys2Proof.Machine.execHandoffTimeout id s
  | .handoffQueryTimer id => Sys2Proof.Machine.execHandoffQueryTimer id s
  | .lookup2 id => Sys2Proof.Machine.execLookup2 id s
  | .lookup id => Sys2Proof.Machine.execLookup id s
  | .scatter id => Sys2Proof.Machine.execScatter id s
  | .publish id => Sys2Proof.Machine.execPublish id s
  | .replicate id => Sys2Proof.Machine.execReplicate id s
  | .migrate id => Sys2Proof.Machine.execMigrate id s
  | .tlkup port msg => Sys2Proof.Machine.execTlkup port msg s
  | .trsp port msg => Sys2Proof.Machine.execTrsp port msg s
  | .tgrad port msg => Sys2Proof.Machine.execTgrad port msg s
  | .tctlStage port msg => Sys2Proof.Machine.execTctlStage port msg s
  | .tctlFlip port msg => Sys2Proof.Machine.execTctlFlip port msg s
  | .tctlAbandon port msg => Sys2Proof.Machine.execTctlAbandon port msg s
  | .tctlQuery port msg => Sys2Proof.Machine.execTctlQuery port msg s
  | .tctlReserve port msg => Sys2Proof.Machine.execTctlReserve port msg s
  | .tctlCopy port msg => Sys2Proof.Machine.execTctlCopy port msg s
  | .tctlLog port msg => Sys2Proof.Machine.execTctlLog port msg s
  | .tctlRoute port msg => Sys2Proof.Machine.execTctlRoute port msg s
  | .tctlRelease port msg => Sys2Proof.Machine.execTctlRelease port msg s
  | .tctlRepl port msg => Sys2Proof.Machine.execTctlRepl port msg s
  | .tctlDone port msg => Sys2Proof.Machine.execTctlDone port msg s
  | .tctlMismatch port msg => Sys2Proof.Machine.execTctlMismatch port msg s
  | .tctlRefused port msg => Sys2Proof.Machine.execTctlRefused port msg s
  | .publishTimeout key => Sys2Proof.Machine.execPublishTimeout key s
  | .flipResendTimer key => Sys2Proof.Machine.execFlipResendTimer key s
  | .publishQueryTimer key => Sys2Proof.Machine.execPublishQueryTimer key s
  | .versionRetire chamber table => Sys2Proof.Machine.execVersionRetire chamber table s
  | .moveTimeout key => Sys2Proof.Machine.execMoveTimeout key s
  | .routeResendTimer key => Sys2Proof.Machine.execRouteResendTimer key s
  | .sketchDecay => Sys2Proof.Machine.execSketchDecay s
  | .sketchWrite slot chamber table en => Sys2Proof.Machine.execSketchWrite slot chamber table en s
  | .search id => Sys2Proof.Machine.execSearch id s
  | .galleryWaitTimeout id => Sys2Proof.Machine.execGalleryWaitTimeout id s
  | .insert id => Sys2Proof.Machine.execInsert id s
  | .delete id => Sys2Proof.Machine.execDelete id s
  | .compact id => Sys2Proof.Machine.execCompact id s
  | .compactLeafStart id => Sys2Proof.Machine.execCompactLeafStart id s
  | .gqry port msg => Sys2Proof.Machine.execGqry port msg s
  | .grsp port msg => Sys2Proof.Machine.execGrsp port msg s
  | .galCacheClr chamber => Sys2Proof.Machine.execGalCacheClr chamber s
  | .ethFrameReceive port frame => Sys2Proof.Machine.execEthFrameReceive port frame s
  | .arpNdEcho port frame => Sys2Proof.Machine.execArpNdEcho port frame s
  | .pfcPauseReceive port prio quanta => Sys2Proof.Machine.execPfcPauseReceive port prio quanta s
  | .rdmaRead port frame => Sys2Proof.Machine.execRdmaRead port frame s
  | .rdmaWrite port frame => Sys2Proof.Machine.execRdmaWrite port frame s
  | .rdmaReadResponse port frame => Sys2Proof.Machine.execRdmaReadResponse port frame s
  | .roceAck port frame => Sys2Proof.Machine.execRoceAck port frame s
  | .roceNak port frame => Sys2Proof.Machine.execRoceNak port frame s
  | .cnp port frame => Sys2Proof.Machine.execCnp port frame s
  | .rateIncreaseTimer qp => Sys2Proof.Machine.execRateIncreaseTimer qp s
  | .qpRetransmitTimeout qp => Sys2Proof.Machine.execQpRetransmitTimeout qp s
  | .qpReset qp => Sys2Proof.Machine.execQpReset qp s
  | .qpRts qp => Sys2Proof.Machine.execQpRts qp s
  | .wflush id => Sys2Proof.Machine.execWflush id s
  | .winval id => Sys2Proof.Machine.execWinval id s
  | .portalV2Request port frame => Sys2Proof.Machine.execPortalV2Request port frame s
  | .portalV1Request port frame => Sys2Proof.Machine.execPortalV1Request port frame s
  | .portalReply key => Sys2Proof.Machine.execPortalReply key s
  | .replyCacheExpire src sport reqid => Sys2Proof.Machine.execReplyCacheExpire src sport reqid s
  | .ptpEventMessage port frame => Sys2Proof.Machine.execPtpEventMessage port frame s
  | .bndOpen target index => Sys2Proof.Machine.execBndOpen target index s
  | .bndData arg => Sys2Proof.Machine.execBndData arg s
  | .bndClose => Sys2Proof.Machine.execBndClose s
  | .bndAbandon => Sys2Proof.Machine.execBndAbandon s
  | .bndSelect slot => Sys2Proof.Machine.execBndSelect slot s
  | .load => Sys2Proof.Machine.execLoad s
  | .chbApply chamber => Sys2Proof.Machine.execChbApply chamber s
  | .attest => Sys2Proof.Machine.execAttest s
  | .floorPropose => Sys2Proof.Machine.execFloorPropose s
  | .jread arg => Sys2Proof.Machine.execJread arg s
  | .bndCmdBadOp => Sys2Proof.Machine.execBndCmdBadOp s
  | .journalRecordCommit => Sys2Proof.Machine.execJournalRecordCommit s
  | .scrub id errs bad => Sys2Proof.Machine.execScrub id errs bad s
  | .scrubStart t2 errs bad => Sys2Proof.Machine.execScrubStart t2 errs bad s
  | .logFree all slot => Sys2Proof.Machine.execLogFree all slot s
  | .telemetryTick => Sys2Proof.Machine.execTelemetryTick s
  | .backgroundDefer cls unit => Sys2Proof.Machine.execBackgroundDefer cls unit s
  | .hbmRefresh unit => Sys2Proof.Machine.execHbmRefresh unit s
  | .calibration unit => Sys2Proof.Machine.execCalibration unit s
  | .tallyTick => Sys2Proof.Machine.execTallyTick s
  | .tscore port msg => Sys2Proof.Machine.execTscore port msg s
  | .texpel port msg => Sys2Proof.Machine.execTexpel port msg s
  | .reinstate device => Sys2Proof.Machine.execReinstate device s
  | .expel device => Sys2Proof.Machine.execExpel device s
  | .probation device => Sys2Proof.Machine.execProbation device s
  | .emark port msg => Sys2Proof.Machine.execEmark port msg s
  | .rerte port msg => Sys2Proof.Machine.execRerte port msg s
  | .lrevoke port msg => Sys2Proof.Machine.execLrevoke port msg s
  | .cmpRevoke first count => Sys2Proof.Machine.execCmpRevoke first count s
  | .revokeTimeout => Sys2Proof.Machine.execRevokeTimeout s
  | .bmir port msg => Sys2Proof.Machine.execBmir port msg s
  | .bmirTimeout pair bseq => Sys2Proof.Machine.execBmirTimeout pair bseq s
  | .buttressEnable pair => Sys2Proof.Machine.execButtressEnable pair s
  | .buttressCopyDone pair => Sys2Proof.Machine.execButtressCopyDone pair s
  | .cmpStage epoch => Sys2Proof.Machine.execCmpStage epoch s
  | .cmpCommit epoch => Sys2Proof.Machine.execCmpCommit epoch s
  | .cmpAbort => Sys2Proof.Machine.execCmpAbort s
  | .graceEnd => Sys2Proof.Machine.execGraceEnd s
  | .resolve winner chamber slot => Sys2Proof.Machine.execResolve winner chamber slot s
  | .powerApplied modules => Sys2Proof.Machine.execPowerApplied modules s
  | .resetNRelease => Sys2Proof.Machine.execResetNRelease s
  | .resetNHold => Sys2Proof.Machine.execResetNHold s
  | .pgRise rail => Sys2Proof.Machine.execPgRise rail s
  | .pgFall rail => Sys2Proof.Machine.execPgFall rail s
  | .pgTimeout rail => Sys2Proof.Machine.execPgTimeout rail s
  | .aonUndervoltage => Sys2Proof.Machine.execAonUndervoltage s
  | .readySignal domain => Sys2Proof.Machine.execReadySignal domain s
  | .riseTimeout domain => Sys2Proof.Machine.execRiseTimeout domain s
  | .clockFault refLost => Sys2Proof.Machine.execClockFault refLost s
  | .shadeIdle domain => Sys2Proof.Machine.execShadeIdle domain s
  | .dimIdle domain => Sys2Proof.Machine.execDimIdle domain s
  | .wakeN => Sys2Proof.Machine.execWakeN s
  | .hareshSignalDetect => Sys2Proof.Machine.execHareshSignalDetect s
  | .dark => Sys2Proof.Machine.execDark s
  | .wake => Sys2Proof.Machine.execWake s
  | .coldReset => Sys2Proof.Machine.execColdReset s
  | .warmReset => Sys2Proof.Machine.execWarmReset s
  | .portReset port => Sys2Proof.Machine.execPortReset port s
  | .inletHot => Sys2Proof.Machine.execInletHot s
  | .thermalSample temps => Sys2Proof.Machine.execThermalSample temps s
  | .registerWrite iface offset len value => Sys2Proof.Machine.execRegisterWrite iface offset len value s
  | .wideRegisterCapture iface offset => Sys2Proof.Machine.execWideRegisterCapture iface offset s
  | .moveGraceEnd id => Sys2Proof.Machine.execMoveGraceEnd id s
  | .ptpLossOfLock => Sys2Proof.Machine.execPtpLossOfLock s
  | .receivedPauseExpiry port prio => Sys2Proof.Machine.execReceivedPauseExpiry port prio s

end Sys2Proof.Machine
end

