-- ==== Sys2Proof/WellFormed.lean ====
section
/-!
DEFINITION. Which commands are well formed: what their operands' types do not say. A command that is not cannot arrive from hardware that
follows the spec; the model gives it a meaning all the same.
-/

namespace Sys2Proof

/-- A message of a command: its OPCODE (04 R144, 17 R656), reserved bits of ADDR in CVA form, and whole data slots of 32 bytes (R143). -/
def msgWf (op : Nat) (m : Msg) : Bool :=
  m.op.toNat == op && m.data.length % 32 == 0 && (m.af || decide (m.addr.toNat < 2 ^ 52))

/-- A command is well formed: message commands carry their message; a flit 256 bytes (03 R90);
a register write 4 or 8 aligned bytes (00 R9, 19 R718); a thermal sample all 15 sensors (20 R752); a CXL write a line (04 R178). -/
def Instr.wf : Instr → Bool
  | .assign _ => true
  | .seal => true
  | .free => true
  | .lendAttach => true
  | .remoteAttach => true
  | .detach => true
  | .extCmdBadOp => true
  | .extentZeroingDone => true
  | .extentDrainDone => true
  | .hdmCommit _ _ _ _ => true
  | .flitReceive _ raw => raw.length == 256
  | .ackTimer _ => true
  | .retrainDone _ => true
  | .laneLossOfLock _ _ => true
  | .laneFecWindow _ _ => true
  | .portTrainingDone _ _ _ _ => true
  | .trainingTimeout _ => true
  | .hubCellArrival _ _ => true
  | .hubFrameArrival _ => true
  | .hubMatch => true
  | .hubEgress => true
  | .rdShared _ m => msgWf 1 m
  | .rdOwn _ m => msgWf 2 m
  | .rdOnce _ m => msgWf 3 m
  | .wrLine _ m => msgWf 4 m
  | .wrPartial _ m => msgWf 5 m
  | .atomic _ m => msgWf 6 m
  | .sweep _ m => msgWf 7 m
  | .fence _ m => msgWf 8 m
  | .evict _ m => msgWf 9 m
  | .recallMsg _ m => msgWf 0x20 m
  | .invalMsg _ m => msgWf 0x21 m
  | .retry _ m => msgWf 0x22 m
  | .grant _ m => msgWf 0x23 m
  | .data _ m => msgWf 0x24 m
  | .poisonData _ m => msgWf 0x25 m
  | .ack _ m => msgWf 0x26 m
  | .sweepScanDone => true
  | .tierServiceDone _ _ => true
  | .recallTimeout _ _ => true
  | .invalTimeout _ _ => true
  | .reqTimeout _ _ => true
  | .ticketExpire _ => true
  | .hold _ => true
  | .fenceComplete _ => true
  | .releaseAtomicSend _ => true
  | .memRd _ _ => true
  | .memRdData _ _ => true
  | .memWr _ q => q.data.length == 64
  | .memWrPtl _ q => q.data.length == 64
  | .memClnEvct _ _ => true
  | .memInv _ _ => true
  | .memSpecRd => true
  | .biRspS _ _ => true
  | .biRspI _ _ => true
  | .biConflict _ _ => true
  | .biConflictAck => true
  | .chamberEnable _ => true
  | .chamberDisable _ => true
  | .chamberReset _ => true
  | .drainTimeout _ => true
  | .disableComplete _ => true
  | .chamberResetDone _ => true
  | .doorbell _ _ _ => true
  | .completionHeadWrite _ _ _ => true
  | .ringEnable _ _ _ => true
  | .ringDisable _ _ => true
  | .descriptorAdmit _ _ => true
  | .descriptorFetchDone _ => true
  | .nop _ => true
  | .atomicDescriptor _ => true
  | .signalAgeTimer _ _ => true
  | .opTimeout _ => true
  | .copy _ => true
  | .placeStage _ => true
  | .placePromote _ => true
  | .placePin _ => true
  | .placeUnpin _ => true
  | .placeRelease _ => true
  | .frameFillDone _ _ _ => true
  | .settle _ => true
  | .settleStart _ => true
  | .settleChunkDone _ _ _ => true
  | .schedule _ => true
  | .scheduleEntryTrigger _ _ => true
  | .scheduleTimer _ _ => true
  | .cartTransfer _ _ => true
  | .cartTakeover _ _ => true
  | .cartRetire _ => true
  | .cartRelease _ => true
  | .cartCmdBadOp => true
  | .transferExtentDone => true
  | .nvmeCommandDone _ _ _ _ => true
  | .cartCmdTimeout _ => true
  | .cartFailureReport _ => true
  | .cartRemoved _ => true
  | .cartInserted _ => true
  | .cartLinkUp _ => true
  | .cartAuthTimeout _ => true
  | .pteReadDone _ => true
  | .faultBatchAge _ => true
  | .faultResume _ _ => true
  | .fqHeadWrite _ _ => true
  | .xinv _ m => msgWf 0x48 m
  | .invalidateRegister _ _ _ _ => true
  | .xinvAckReady _ => true
  | .xinvAckTimeout _ => true
  | .rootWrite _ _ => true
  | .accessCounterDecay => true
  | .run _ => true
  | .runStart _ => true
  | .layListFetchDone _ => true
  | .nopBrick _ => true
  | .endBrick _ => true
  | .sync _ => true
  | .loop _ => true
  | .seta _ => true
  | .signal _ => true
  | .semwait _ => true
  | .semset _ => true
  | .semwaitRelease _ => true
  | .atomicBrick _ => true
  | .tload _ => true
  | .tstore _ => true
  | .tcopy _ => true
  | .mma _ => true
  | .accst _ => true
  | .accld _ => true
  | .vop _ => true
  | .vred _ => true
  | .attendBrick _ => true
  | .brickDone _ _ => true
  | .brickTimeout _ => true
  | .runComplete _ => true
  | .semWrite _ _ _ => true
  | .compress _ => true
  | .expand _ => true
  | .tables _ => true
  | .tablesInstall _ => true
  | .create _ => true
  | .append _ => true
  | .hoardSeal _ => true
  | .hoardAttend _ => true
  | .attendFallbackWait _ => true
  | .fetch _ => true
  | .drop _ => true
  | .hoardPagesFree _ => true
  | .pin _ => true
  | .relink _ => true
  | .hreq _ m => msgWf 0x54 m
  | .hrsp _ m => msgWf 0x55 m
  | .hxfer _ m => msgWf 0x56 m
  | .hctlCommitReq _ m => msgWf 0x57 m
  | .hctlCommitted _ m => msgWf 0x57 m
  | .hctlRefused _ m => msgWf 0x57 m
  | .hctlQuery _ m => msgWf 0x57 m
  | .hctlAbort _ m => msgWf 0x57 m
  | .bucketWrite _ _ _ _ _ => true
  | .handoffTimeout _ => true
  | .handoffQueryTimer _ => true
  | .lookup2 _ => true
  | .lookup _ => true
  | .scatter _ => true
  | .publish _ => true
  | .replicate _ => true
  | .migrate _ => true
  | .tlkup _ m => msgWf 0x50 m
  | .trsp _ m => msgWf 0x51 m
  | .tgrad _ m => msgWf 0x52 m
  | .tctlStage _ m => msgWf 0x53 m
  | .tctlFlip _ m => msgWf 0x53 m
  | .tctlAbandon _ m => msgWf 0x53 m
  | .tctlQuery _ m => msgWf 0x53 m
  | .tctlReserve _ m => msgWf 0x53 m
  | .tctlCopy _ m => msgWf 0x53 m
  | .tctlLog _ m => msgWf 0x53 m
  | .tctlRoute _ m => msgWf 0x53 m
  | .tctlRelease _ m => msgWf 0x53 m
  | .tctlRepl _ m => msgWf 0x53 m
  | .tctlDone _ m => msgWf 0x53 m
  | .tctlMismatch _ m => msgWf 0x53 m
  | .tctlRefused _ m => msgWf 0x53 m
  | .publishTimeout _ => true
  | .flipResendTimer _ => true
  | .publishQueryTimer _ => true
  | .versionRetire _ _ => true
  | .moveTimeout _ => true
  | .routeResendTimer _ => true
  | .sketchDecay => true
  | .sketchWrite _ _ _ _ => true
  | .search _ => true
  | .galleryWaitTimeout _ => true
  | .insert _ => true
  | .delete _ => true
  | .compact _ => true
  | .compactLeafStart _ => true
  | .gqry _ m => msgWf 0x58 m
  | .grsp _ m => msgWf 0x59 m
  | .galCacheClr _ => true
  | .ethFrameReceive _ _ => true
  | .arpNdEcho _ _ => true
  | .pfcPauseReceive _ _ _ => true
  | .rdmaRead _ _ => true
  | .rdmaWrite _ _ => true
  | .rdmaReadResponse _ _ => true
  | .roceAck _ _ => true
  | .roceNak _ _ => true
  | .cnp _ _ => true
  | .rateIncreaseTimer _ => true
  | .qpRetransmitTimeout _ => true
  | .qpReset _ => true
  | .qpRts _ => true
  | .wflush _ => true
  | .winval _ => true
  | .portalV2Request _ _ => true
  | .portalV1Request _ _ => true
  | .portalReply _ => true
  | .replyCacheExpire _ _ _ => true
  | .ptpEventMessage _ _ => true
  | .bndOpen _ _ => true
  | .bndData _ => true
  | .bndClose => true
  | .bndAbandon => true
  | .bndSelect _ => true
  | .load => true
  | .chbApply _ => true
  | .attest => true
  | .floorPropose => true
  | .jread _ => true
  | .bndCmdBadOp => true
  | .journalRecordCommit => true
  | .scrub _ _ _ => true
  | .scrubStart _ _ _ => true
  | .logFree _ _ => true
  | .telemetryTick => true
  | .backgroundDefer _ _ => true
  | .hbmRefresh _ => true
  | .calibration _ => true
  | .tallyTick => true
  | .tscore _ m => msgWf 0x60 m
  | .texpel _ m => msgWf 0x61 m
  | .reinstate _ => true
  | .expel _ => true
  | .probation _ => true
  | .emark _ m => msgWf 0x62 m
  | .rerte _ m => msgWf 0x63 m
  | .lrevoke _ m => msgWf 0x64 m
  | .cmpRevoke _ _ => true
  | .revokeTimeout => true
  | .bmir _ m => msgWf 0x66 m
  | .bmirTimeout _ _ => true
  | .buttressEnable _ => true
  | .buttressCopyDone _ => true
  | .cmpStage _ => true
  | .cmpCommit _ => true
  | .cmpAbort => true
  | .graceEnd => true
  | .resolve _ _ _ => true
  | .powerApplied _ => true
  | .resetNRelease => true
  | .resetNHold => true
  | .pgRise _ => true
  | .pgFall _ => true
  | .pgTimeout _ => true
  | .aonUndervoltage => true
  | .readySignal _ => true
  | .riseTimeout _ => true
  | .clockFault _ => true
  | .shadeIdle _ => true
  | .dimIdle _ => true
  | .wakeN => true
  | .hareshSignalDetect => true
  | .dark => true
  | .wake => true
  | .coldReset => true
  | .warmReset => true
  | .portReset _ => true
  | .inletHot => true
  | .thermalSample temps => temps.length == 15
  | .registerWrite _ offset len _ => (len == 4 || len == 8) && offset.toNat % len == 0
  | .wideRegisterCapture _ _ => true
  | .moveGraceEnd _ => true
  | .ptpLossOfLock => true
  | .receivedPauseExpiry _ _ => true

/-- Well-formed, as a proposition. -/
abbrev WellFormed (i : Instr) : Prop := i.wf = true

end Sys2Proof
end

