-- ==== Sys2Proof/Safety.lean ====
section
/-!
DEFINITION. The terms that statements use: a sequencer whose outputs agree with where it stands, memory in its canonical form, a domain that
runs, and two devices that differ in a few register fields.
-/

namespace Sys2Proof.Machine

/-- Stages whose SEQ_EN is high where the sequencer stands (20 R741, R743). -/
def SeqMode.stages : SeqMode → Nat
  | .off => 0
  | .wait => 0
  | .up k => k.val + 1
  | .on => 4
  | .down k => k.val
  | .dead => 0

/-- SEQ_EN0 to SEQ_EN3 are high exactly for the stages that the sequencer's place names: no rail rises before the one below it, none falls after
it (20 R741, R743). -/
def Pkg.Sound (p : Pkg) : Prop :=
  p.en0 = decide (0 < p.mode.stages) ∧ p.en1 = decide (1 < p.mode.stages) ∧
  p.en2 = decide (2 < p.mode.stages) ∧ p.en3 = decide (3 < p.mode.stages)

/-- Home memory in canonical form: addresses rise strictly, and no byte is listed that equals the 0 an unlisted one reads as (log 2). -/
def Memory.wf (m : List Host.Cell) : Bool := memCanonical m

/-- The rails are up and power domain `k` runs, so that work in it wakes nothing (18 R694, R698). -/
def State.Awake (s : State) (k : Nat) : Prop := s.pkg.mode = .on ∧ s.dev.rf .PWR_DOM_STS_STATE k = 1

/-- From `d` to `e` only register fields have changed, and of those only the instances in `fs`. All that is no register field (memory,
extents, directory, tracker, operations, links, units, everything sent) is as it was. -/
def Dev.OnlyFields (d e : Dev) (fs : List (Fld × Nat)) : Prop :=
  e = { d with regs := e.regs } ∧ ∀ f i, (f, i) ∉ fs → e.rf f i = d.rf f i

/-- Every command that waits is well formed. -/
def State.Fed (s : State) : Prop := ∀ c ∈ s.pending, WellFormed c

end Sys2Proof.Machine

/-- The commands that act on the board's sequencer beside the device (20 R741-R745, R754, 18 R701). -/
def Sys2Proof.Instr.ofPackage : Sys2Proof.Instr → Bool
  | .powerApplied _ | .resetNRelease | .resetNHold | .pgRise _ | .pgFall _ | .pgTimeout _ | .aonUndervoltage | .riseTimeout _
  | .thermalSample _ => true
  | _ => false
end

