-- ==== Sys2Proof/Certificates/Slice0/Obligations.lean ====
section
/-!
DEFINITION. The statements for the provers, one `Obligations.<Name>` each, in the order of OBLIGATIONS.json.
-/

open Sys2Proof Sys2Proof.Machine

/-- O1. A step runs the command at the front of the queue (06_chambers_and_work_rings, 19_register_map). -/
def Obligations.StepRunsTheFrontCommand : Prop :=
  ∀ (c : Instr) (rest : List Instr) (s : State), s.pending = c :: rest → step s = exec c { s with pending := rest }

/-- O2. A step on an empty queue answers a next state in which time has passed and what waited goes on (log 62, log 131)
(18_clocks_power_and_reset). -/
def Obligations.IdleStepLetsTimePass : Prop :=
  ∀ (s : State), s.pending = [] →
    (s.pkg.mode = .off → step s = .next s) ∧
    (s.pkg.mode ≠ .off → s.pkg.mode ≠ .on → step s = .next { s with dev := { s.dev with gt := s.dev.gt + 10 } }) ∧
    (s.pkg.mode = .on → step s = .next { s with dev := { s.dev with gt := s.dev.gt + 10 }.txGo.svcGo })

/-- O3. After reset every register field holds its Reset value, no byte of memory is listed and no command waits (R11,
18_clocks_power_and_reset). -/
def Obligations.ResetRegistersAndMemory : Prop :=
  (∀ f i, State.reset.dev.rf f i = f.reset) ∧ State.reset.dev.mem = [] ∧ State.reset.dev.ext = [] ∧ State.reset.dev.ops = [] ∧
    State.reset.dev.coh.slots = [] ∧ State.reset.dev.out = [] ∧ State.reset.pending = [] ∧ State.reset.pkg.mode = .on

/-- O4. At reset the sequencer is sound and memory is in canonical form (20_package_and_ordering). -/
def Obligations.SoundAtReset : Prop :=
  State.reset.pkg.Sound ∧ Memory.wf State.reset.dev.mem = true ∧ State.reset.Fed

/-- O5. A write to an RWL field while a Bond is active leaves the field unchanged (R10). -/
def Obligations.RwlFieldIsHeldByAnActiveBond : Prop :=
  (∀ (d : Dev) (f : Fld) (i v mask : Nat), f.info.ty = .rwl → d.active = true → d.fieldWrite f i v mask = d) ∧
    (∀ (s : State) (iface : Fin 18) (off : BitVec 32) (len : Nat) (v : BitVec 64), ∃ t, exec (.registerWrite iface off len v) s = .next t)

/-- O6. What a software write leaves in an RO, WO, RW1C or RW field that has no rule of its own (R9, 00_scope). -/
def Obligations.FieldTypesOfAWrite : Prop :=
  ∀ (d : Dev) (f : Fld) (i v mask : Nat), ownWrite f = false → f.of mask = 2 ^ f.width - 1 →
    (f.info.ty = .ro ∨ f.info.ty = .wo → d.fieldWrite f i v mask = d) ∧
    (f.info.ty = .rw1c → (d.fieldWrite f i v mask).rf f i = (d.rf f i - Nat.land (d.rf f i) (Nat.land (f.of v) (2 ^ f.width - 1))) % 2 ^ f.width) ∧
    (f.info.ty = .rw → d.takes f i = true → d.rf f i < 2 ^ f.width → d.stored f (f.of v) < 2 ^ f.width →
      (d.fieldWrite f i v mask).rf f i = d.stored f (f.of v)) ∧
    d.OnlyFields (d.fieldWrite f i v mask) [(f, i)]

/-- O7. DOORBELL sets TAIL, or is ignored and counted in DB_ERR with the previous TAIL kept (R236, R258). -/
def Obligations.DoorbellSetsTailOrCounts : Prop :=
  ∀ (s : State) (c : Fin 16) (r : Fin 64) (tail : BitVec 32), s.Awake 227 →
    let i := ringIx c r
    let ignored : Prop := s.dev.rf .CHM_RING_STS_STATE i = 0 ∨ s.dev.rf .CHM_RING_STS_STATE i = 2 ∨ s.dev.rf .CHM_STS_STATE c ≠ 1 ∨
      serialAfter 32 (s.dev.ring i).tail tail.toNat = true ∨
      2 ^ s.dev.rf .CHM_RING_CFG_SIZE_LOG2 i < subMod 32 tail.toNat (s.dev.rf .CHM_RING_CHD_CHEAD i)
    (ignored → ∃ d, exec (.doorbell c r tail) s = .next { s with dev := d } ∧
      d.rf .CHM_RING_STS_DB_ERR i = satAdd Fld.CHM_RING_STS_DB_ERR.width (s.dev.rf .CHM_RING_STS_DB_ERR i) 1 ∧
      s.dev.OnlyFields d [(.CHM_RING_STS_DB_ERR, i)]) ∧
    (¬ ignored → exec (.doorbell c r tail) s =
      .next { s with dev := { s.dev with rings := kput s.dev.rings i { s.dev.ring i with tail := tail.toNat } } })

/-- O8. COMPLETION_HEAD_WRITE sets CHEAD of its ring and changes nothing else (R258, 06_chambers_and_work_rings). -/
def Obligations.CompletionHeadWriteSetsChead : Prop :=
  ∀ (s : State) (c : Fin 16) (r : Fin 64) (v : BitVec 32), s.Awake 227 →
    ∃ d, exec (.completionHeadWrite c r v) s = .next { s with dev := d } ∧ d.rf .CHM_RING_CHD_CHEAD (ringIx c r) = v.toNat ∧
      s.dev.OnlyFields d [(.CHM_RING_CHD_CHEAD, ringIx c r)]

/-- O9. RING_ENABLE starts a ring at its beginning; RING_DISABLE stops it or leaves it STOPPING (R257). -/
def Obligations.RingEnableAndDisable : Prop :=
  ∀ (s : State) (c : Fin 16) (r : Fin 64) (k : BitVec 5), s.Awake 227 →
    let i := ringIx c r
    (s.dev.rf .CHM_RING_CFG_EN i = 1 → exec (.ringEnable c r k) s = .next s) ∧
    (s.dev.rf .CHM_RING_CFG_EN i ≠ 1 → s.dev.rf .CHM_RING_STS_STATE i = 2 →
      ∃ d, exec (.ringEnable c r k) s = .next { s with dev := d } ∧
        d.rf .CHM_RING_STS_DB_ERR i = satAdd Fld.CHM_RING_STS_DB_ERR.width (s.dev.rf .CHM_RING_STS_DB_ERR i) 1 ∧
        s.dev.OnlyFields d [(.CHM_RING_STS_DB_ERR, i)]) ∧
    (s.dev.rf .CHM_RING_CFG_EN i ≠ 1 → s.dev.rf .CHM_RING_STS_STATE i ≠ 2 →
      ∃ d, exec (.ringEnable c r k) s = .next { s with dev := d } ∧
        d.rf .CHM_RING_CFG_EN i = 1 ∧ d.rf .CHM_RING_STS_STATE i = 1 ∧ d.rf .CHM_RING_STS_HEAD i = 0 ∧ d.rf .CHM_RING_CHD_CHEAD i = 0 ∧
        d.rf .CHM_RING_CFG_SIZE_LOG2 i = max 6 (min 16 k.toNat) ∧ (d.ring i).tail = 0 ∧ (d.ring i).admitted = 0 ∧ (d.ring i).written = 0 ∧
        (∀ j, j ≠ i → d.ring j = s.dev.ring j) ∧
        ({ s.dev with rings := d.rings } : Dev).OnlyFields d [(.CHM_RING_CFG_EN, i), (.CHM_RING_STS_STATE, i), (.CHM_RING_STS_HEAD, i),
          (.CHM_RING_CHD_CHEAD, i), (.CHM_RING_CFG_SIZE_LOG2, i)]) ∧
    (s.dev.rf .CHM_RING_CFG_EN i ≠ 1 → exec (.ringDisable c r) s = .next s) ∧
    (s.dev.rf .CHM_RING_CFG_EN i = 1 →
      ∃ d, exec (.ringDisable c r) s = .next { s with dev := d } ∧ d.rf .CHM_RING_CFG_EN i = 0 ∧
        d.rf .CHM_RING_STS_STATE i = (if s.dev.rf .CHM_RING_STS_INFLIGHT i = 0 then 0 else 2) ∧
        s.dev.OnlyFields d [(.CHM_RING_CFG_EN, i), (.CHM_RING_STS_STATE, i)])

/-- O10. CHAMBER_ENABLE, DISABLE and RESET are refused while a Chamber moves; ENABLE returns a DISABLED one (R245, R243). -/
def Obligations.ChamberControlWhileMoving : Prop :=
  ∀ (s : State) (c : Fin 16), s.Awake 228 → s.dev.active = true →
    (s.dev.rf .CHM_STS_STATE c = 2 ∨ s.dev.rf .CHM_STS_STATE c = 3 ∨ s.dev.rf .CHM_STS_STATE c = 5 ∨
        s.dev.rf .CHM_STS_STATE c = 4 ∧ (s.dev.chmSt c).chb = true →
      ∀ cmd ∈ [Instr.chamberEnable c, .chamberDisable c, .chamberReset c],
        ∃ d, exec cmd s = .next { s with dev := d } ∧ d.rf .CHM_STS_REFUSED c = 1 ∧ s.dev.OnlyFields d [(.CHM_STS_REFUSED, c)]) ∧
    (s.dev.rf .CHM_STS_STATE c = 4 → (s.dev.chmSt c).chb = false →
      ∃ d, exec (.chamberEnable c) s = .next { s with dev := d } ∧ d.rf .CHM_CTL_ENABLE c = 1 ∧ d.rf .CHM_STS_STATE c = 1 ∧
        s.dev.OnlyFields d [(.CHM_CTL_ENABLE, c), (.CHM_STS_STATE, c)])

/-- O11. HDM_COMMIT succeeds only with VALID 1 and the size of the map; otherwise the decoder decodes nothing (R76). -/
def Obligations.HdmCommitSucceedsOnlyOnItsMap : Prop :=
  ∀ (s : State) (port : Fin 16) (dec : Fin 8) (base : BitVec 52) (size : BitVec 64), s.Awake (229 + port.val) → s.Awake 226 →
    let i := port.val * 8 + dec.val
    let fits : Prop := s.dev.rf .XLT_HDM_MAP_VALID i = 1 ∧ size.toNat = s.dev.rf .XLT_HDM_MAP_SIZE i * 2 ^ 28
    (fits → exec (.hdmCommit port dec base size) s = .next { s with dev :=
      { s.dev with hdm := kput s.dev.hdm i base.toNat, out := .cxl port.val .commitOk dec.val base.toNat false [] :: s.dev.out } }) ∧
    (¬ fits → exec (.hdmCommit port dec base size) s = .next { s with dev :=
      { s.dev with hdm := kdel s.dev.hdm i, out := .cxl port.val .notCommitted dec.val base.toNat false [] :: s.dev.out } })

/-- O12. An undefined OP of XLT_EXT_CMD completes with BAD_KIND, one of TIE_CART_CMD with BAD_STATE (R71, R299). -/
def Obligations.UndefinedExtentAndCartridgeOps : Prop :=
  ∀ (s : State), s.Awake 228 →
    (s.dev.pwr.warm ≠ none → exec .extCmdBadOp s = .next s) ∧
    (s.dev.pwr.warm = none → s.dev.rf .XLT_EXT_STS_BUSY ≠ 1 → ∃ d, exec .extCmdBadOp s = .next { s with dev := d } ∧ d.rf .XLT_EXT_RESULT_CODE = 2 ∧
      s.dev.OnlyFields d [(.XLT_EXT_RESULT_CODE, 0), (.XLT_EXT_STS_FAILED_AT, 0)]) ∧
    (s.dev.pwr.warm = none → s.dev.rf .XLT_EXT_STS_BUSY = 1 → ∃ d, exec .extCmdBadOp s = .next { s with dev := d } ∧ d.rf .XLT_EXT_STS_OVERRUN = 1 ∧
      s.dev.OnlyFields d [(.XLT_EXT_STS_OVERRUN, 0)]) ∧
    (s.dev.rf .TIE_CART_CSTS_BUSY ≠ 1 → ∃ d, exec .cartCmdBadOp s = .next { s with dev := d } ∧ d.rf .TIE_CART_CSTS_RESULT = 1 ∧
      d.rf .TIE_CART_CSTS_BUSY = 0 ∧ s.dev.OnlyFields d [(.TIE_CART_CSTS_RESULT, 0), (.TIE_CART_CSTS_BUSY, 0)]) ∧
    (s.dev.rf .TIE_CART_CSTS_BUSY = 1 → exec .cartCmdBadOp s = .next s)

/-- O13. What the extent check of an access says in each extent state (R57, 02_pool_addresses). -/
def Obligations.ExtentCheckFollowsTheStates : Prop :=
  ∀ (d : Dev) (c n : Nat) (write standin : Bool), n ≠ 0 → d.inPool n = false → (d.isMirror n && !standin) = false → d.extHeld n = false →
    let e := d.extent n
    ((e.st = .absent ∨ e.st = .free ∨ e.st = .settling) → d.stage4 c n write standin = .check) ∧
    (e.chamber ≠ c → d.stage4 c n write standin = .check) ∧
    (e.chamber = c → e.st = .open_ → d.stage4 c n write standin = .ok) ∧
    (e.chamber = c → e.st = .immutable → write = false → d.stage4 c n write standin = .ok) ∧
    (e.chamber = c → e.st = .immutable → write = true → extKind n ≠ .t1 → extKind n ≠ .t2 → d.stage4 c n write standin = .wprot) ∧
    (e.chamber = c → e.st = .immutable → write = true → extKind n = .t1 ∨ extKind n = .t2 →
      d.stage4 c n write standin = if d.settleSource n then .wprot else .ok) ∧
    (e.chamber = c → e.st = .revoking → d.stage4 c n write standin = .revoked) ∧
    (e.chamber = c → e.st = .lost → d.stage4 c n write standin = .lost)

/-- O14. The values that the atomics store (R205). -/
def Obligations.AtomicsFollowTheTable : Prop :=
  ∀ (n m v s : Nat), m < 2 ^ (8 * n) → v < 2 ^ (8 * n) →
    atomicVal 0 n m v s = (m + v) % 2 ^ (8 * n) ∧
    toInt (8 * n) (atomicVal 2 n m v s) = min (toInt (8 * n) m) (toInt (8 * n) v) ∧
    toInt (8 * n) (atomicVal 3 n m v s) = max (toInt (8 * n) m) (toInt (8 * n) v) ∧
    atomicVal 4 n m v s = min m v ∧ atomicVal 5 n m v s = max m v ∧
    atomicVal 6 n m v s = (if m = v then s else m)

/-- O15. A byte of home memory reads what was last written there, and a write leaves every other byte as it was (05_memory_model). -/
def Obligations.MemoryReadsWhatWasWritten : Prop :=
  ∀ (d : Dev) (a : Nat) (l : Bytes), Memory.wf d.mem = true →
    Memory.wf (d.wrMem a l).mem = true ∧
    (∀ i, i < l.length → (d.wrMem a l).byte (a + i) = l.getD i 0#8) ∧
    (∀ x, x < a ∨ a + l.length ≤ x → (d.wrMem a l).byte x = d.byte x)

/-- O16. Reading the header slot of a message gives back every field of it (R143). -/
def Obligations.HeaderSlotKeepsEveryField : Prop :=
  ∀ (m : Msg), (msgHeader m).length = 32 ∧ parseHeader (msgHeader m) = { m with data := [] }

/-- O17. The slots of any messages with assigned opcodes, in order, assemble to exactly those messages (R143, R145, R146). -/
def Obligations.SlotsAssembleToTheMessages : Prop :=
  ∀ (ms : List Msg), (∀ m ∈ ms, opAssigned m.opc = true ∧ m.data.length = 32 * dataSlots m) →
    assemble (ms.flatMap msgSlots) [] [] = some (ms, [])

/-- O18. MEMSPECRD and BICONFLICTACK change nothing; BICONFLICT is answered BIConflictAck (log 19, log 67) (04_mortar_coherence). -/
def Obligations.BiConflictIsAcknowledged : Prop :=
  (∀ s : State, exec .memSpecRd s = .next s ∧ exec .biConflictAck s = .next s) ∧
    ∀ (s : State) (port : Fin 16) (q : CxlReq), s.Awake (229 + port.val) → s.Awake 226 →
      (s.dev.rf .HUB_FP_CFG_MODE port = 2 → exec (.biConflict port q) s = .next { s with dev :=
        { s.dev with out := .cxlCredit port.val 1 :: .cxl port.val .biConflictAck q.snp.toNat (q.hpa.toNat / 64 * 64) false [] :: s.dev.out } }) ∧
      (s.dev.rf .HUB_FP_CFG_MODE port ≠ 2 → exec (.biConflict port q) s = .next s)

/-- O19. PORT_TRAINING_DONE with success sets LINK_UP, and leaves a port that was not training alone (R101, 03_fabric_ports_and_hub). -/
def Obligations.TrainingBringsTheLinkUp : Prop :=
  ∀ (s : State) (p : Fin 16) (width4 : Bool) (rate : BitVec 2), s.pkg.mode = .on →
    ((s.dev.link_ p).training = true →
      ∃ d, exec (.portTrainingDone p true width4 rate) s = .next { s with dev := d } ∧ (d.link_ p).training = false ∧
        d.rf .HUB_FP_STS_LINK_UP p = 1 ∧ d.rf .HUB_FP_STS_WIDTH p = (if width4 then 1 else 2) ∧
        d.rf .HUB_FP_STS_RATE p = (if s.dev.rf .HUB_FP_CFG_MODE p = 1 then 3 else rate.toNat) ∧
        (∀ q, q ≠ p.val → d.link_ q = s.dev.link_ q) ∧
        ({ s.dev with link := d.link } : Dev).OnlyFields d [(.HUB_FP_STS_LINK_UP, p), (.HUB_FP_STS_WIDTH, p), (.HUB_FP_STS_RATE, p)]) ∧
    ((s.dev.link_ p).training = false →
      (∀ ok, exec (.portTrainingDone p ok width4 rate) s = .next s) ∧ exec (.trainingTimeout p) s = .next s)

/-- O20. RETRAIN_DONE ends the retrain and replays what no ACK has covered (R101, R97, R90). -/
def Obligations.RetrainReplaysFromTheLastAck : Prop :=
  ∀ (s : State) (p : Fin 16), s.pkg.mode = .on →
    let fs := (s.dev.link_ p).replay.take 2048
    (s.dev.rf .HUB_FP_STS_RETRAINING p ≠ 1 → exec (.retrainDone p) s = .next s) ∧
    (s.dev.rf .HUB_FP_STS_RETRAINING p = 1 →
      ∃ d, exec (.retrainDone p) s = .next { s with dev := d } ∧ d.rf .HUB_FP_STS_RETRAINING p = 0 ∧
        d.out = (fs.map (fun f => Out.flit p.val (f.raw (s.dev.link_ p).ack))).reverse ++ s.dev.out ∧
        d.rf .HUB_FP_ERR_REPLAY p = satAdd Fld.HUB_FP_ERR_REPLAY.width (s.dev.rf .HUB_FP_ERR_REPLAY p) fs.length ∧
        ({ s.dev with out := d.out } : Dev).OnlyFields d [(.HUB_FP_STS_RETRAINING, p), (.HUB_FP_ERR_REPLAY, p)])

/-- O21. HUB_CELL_ARRIVAL stages a cell while fewer than two of its class wait at its input (R114, 03_fabric_ports_and_hub). -/
def Obligations.CellsAreStagedTwoToAClass : Prop :=
  ∀ (s : State) (input : Fin 40) (cell : Cell), s.Awake 226 →
    let n := (s.dev.hub.staged.filter (fun x => x.1 == input.val && x.2.tc == cell.tc)).length
    (n < 2 → exec (.hubCellArrival input cell) s =
      .next { s with dev := { s.dev with hub.staged := s.dev.hub.staged ++ [(input.val, cell)] } }) ∧
    (2 ≤ n → exec (.hubCellArrival input cell) s = .next s)

/-- O22. FQ_HEAD_WRITE sets HEAD unless TAIL less HEAD would pass 4,096 (R338). -/
def Obligations.FaultQueueHeadWrite : Prop :=
  ∀ (s : State) (c : Fin 16) (v : BitVec 32), s.Awake 228 →
    (4096 < subMod 32 (s.dev.rf .XLT_FQ_PTR_TAIL c) v.toNat → exec (.fqHeadWrite c v) s = .next s) ∧
    (subMod 32 (s.dev.rf .XLT_FQ_PTR_TAIL c) v.toNat ≤ 4096 →
      ∃ d, exec (.fqHeadWrite c v) s = .next { s with dev := d } ∧ d.rf .XLT_FQ_PTR_HEAD c = v.toNat ∧
        s.dev.OnlyFields d [(.XLT_FQ_PTR_HEAD, c)])

/-- O23. ROOT_WRITE sets the Chamber's root and drops every translation of the Chamber and no other (R315). -/
def Obligations.RootWriteDropsTranslations : Prop :=
  ∀ (s : State) (c : Fin 16) (root : BitVec 41), s.Awake 228 → root.toNat < 2 ^ Fld.XLT_CHM_ROOT_ROOT.width →
    ∃ d, exec (.rootWrite c root) s = .next { s with dev := d } ∧ d.rf .XLT_CHM_ROOT_ROOT c = root.toNat ∧
      (∀ k x, (∃ e ∈ d.xlt.tlb, e.1 = k ∧ x ∈ e.2) ↔ (∃ e ∈ s.dev.xlt.tlb, e.1 = k ∧ x ∈ e.2) ∧ x.chamber ≠ c.val) ∧
      ({ s.dev with xlt.tlb := d.xlt.tlb } : Dev).OnlyFields d [(.XLT_CHM_ROOT_ROOT, c)]

/-- O24. ACCESS_COUNTER_DECAY halves every access counter, rounding down (R330). -/
def Obligations.AccessCountersAreHalved : Prop :=
  ∀ (s : State), s.pkg.mode = .on → keysRise s.dev.xlt.acnt = true →
    ∃ m, exec .accessCounterDecay s = .next { s with dev := { s.dev with xlt.acnt := m, xlt.asrc := [] } } ∧
      ∀ k, sget 0 m k = sget 0 s.dev.xlt.acnt k / 2

/-- O25. SEM_WRITE sets the semaphore's value and changes nothing else (R388, 09_masons_and_lay_lists). -/
def Obligations.SemaphoreWriteSetsValue : Prop :=
  ∀ (s : State) (co : Fin 16) (n : Fin 64) (v : BitVec 32), s.Awake 227 →
    ∃ d, exec (.semWrite co n v) s = .next { s with dev := d } ∧ d.rf .MSN_SEM_VALUE (co.val * 64 + n.val) = v.toNat ∧
      s.dev.OnlyFields d [(.MSN_SEM_VALUE, co.val * 64 + n.val)]

/-- O26. NOP_BRICK, SYNC and SEMSET at the head of a running Mason go on to the next brick; SEMSET sets its semaphore (R360, R356). -/
def Obligations.ControlBricksAdvanceTheList : Prop :=
  ∀ (s : State) (k : Fin 144) (m : Mason) (r : Bytes) (id : Nat), s.Awake k.val →
    (s.dev.atBrick k 0x00 = some (m, r, id) →
      ∃ d, exec (.nopBrick k) s = .next { s with dev := d } ∧ d.mason k = { m with pc := m.pc + 1 } ∧
        (∀ j, j ≠ k.val → d.mason j = s.dev.mason j) ∧ d.mem = s.dev.mem ∧ d.ops = s.dev.ops ∧ d.runs = s.dev.runs) ∧
    (∀ o, s.dev.atBrick k 0x02 = some (m, r, id) → (s.dev.mason k).unitsIdle = true → kget s.dev.ops id = some o →
      s.dev.dirtyWins o.chamber = [] → s.dev.flushFailed o.chamber = false →
      ∃ d, exec (.sync k) s = .next { s with dev := d } ∧ d.mason k = { m with pc := m.pc + 1 } ∧
        (∀ j, j ≠ k.val → d.mason j = s.dev.mason j) ∧ d.mem = s.dev.mem ∧ d.ops = s.dev.ops ∧ d.runs = s.dev.runs) ∧
    (s.dev.atBrick k 0x07 = some (m, r, id) →
      ∃ d, exec (.semset k) s = .next { s with dev := d } ∧ d.mason k = { m with pc := m.pc + 1 } ∧
        d.rf .MSN_SEM_VALUE (k.val / 9 * 64 + bb r 2 0 6) = field r 4 4 % 2 ^ 32 ∧
        (∀ j, j ≠ k.val → d.mason j = s.dev.mason j) ∧ d.mem = s.dev.mem ∧ d.ops = s.dev.ops ∧ d.runs = s.dev.runs)

/-- O27. SKETCH_WRITE names the slot's table and clears its sketch (R512, R501). -/
def Obligations.SketchWriteNamesTheTable : Prop :=
  ∀ (s : State) (n : Fin 8) (c : Fin 16) (table : BitVec 28) (en : Bool), s.Awake 228 →
    ∃ d, exec (.sketchWrite n c table en) s = .next { s with dev := d } ∧ d.rf .TBL_SKETCH_EN n = b2n en ∧
      d.rf .TBL_SKETCH_TABLE n = table.toNat ∧ d.rf .TBL_SKETCH_CHAMBER n = c.val ∧
      kget d.tbl.sketch n = none ∧ (∀ j, j ≠ n.val → kget d.tbl.sketch j = kget s.dev.tbl.sketch j) ∧
      ({ s.dev with tbl.sketch := d.tbl.sketch } : Dev).OnlyFields d [(.TBL_SKETCH_EN, n), (.TBL_SKETCH_TABLE, n), (.TBL_SKETCH_CHAMBER, n)]

/-- O28. GAL_CACHE_CLR drops the Chamber's cached nodes and changes nothing else (R544). -/
def Obligations.GalleryCacheClearDropsTheChamber : Prop :=
  ∀ (s : State) (c : Fin 16), s.Awake 228 →
    exec (.galCacheClr c) s = .next { s with dev := { s.dev with gal.nodes := s.dev.gal.nodes.filter (fun n => n.chamber ≠ c.val) } }

/-- O29. REPLY_CACHE_EXPIRE drops the entry of that client, port and REQID, and no other (R568). -/
def Obligations.ReplyCacheExpiry : Prop :=
  ∀ (s : State) (src : Nat) (sport : BitVec 16) (reqid : Nat), s.pkg.mode = .on →
    ∃ l, exec (.replyCacheExpire src sport reqid) s = .next { s with dev := { s.dev with net.cache := l } } ∧
      ∀ x, x ∈ l ↔ x ∈ s.dev.net.cache ∧ ¬ (x.src = src ∧ x.sport = sport.toNat ∧ x.reqid = reqid)

/-- O30. PTP_LOSS_OF_LOCK clears LOCKED and leaves GT as it was (R552). -/
def Obligations.PtpLossKeepsGt : Prop :=
  ∀ (s : State), s.pkg.mode = .on →
    ∃ d, exec .ptpLossOfLock s = .next { s with dev := d } ∧ d.rf .NET_PTP_CFG_LOCKED = 0 ∧ d.gt = s.dev.gt ∧
      ({ s.dev with net.slew := 0 } : Dev).OnlyFields d [(.NET_PTP_CFG_LOCKED, 0)]

/-- O31. Every BND_CMD while BND_STS.BUSY is 1 is ignored and sets ERR to BUSY (R612). -/
def Obligations.BondCommandsWhileBusy : Prop :=
  ∀ (s : State) (t i : BitVec 4) (a slot : BitVec 32) (c : Fin 16), s.Awake 228 → s.dev.rf .BND_STS_BUSY = 1 →
    ∀ cmd ∈ [Instr.bndOpen t i, .bndData a, .bndClose, .bndAbandon, .bndSelect slot, .load, .chbApply c, .attest, .floorPropose, .jread a,
        .bndCmdBadOp],
      ∃ d, exec cmd s = .next { s with dev := d } ∧ d.rf .BND_STS_ERR = 1 ∧ s.dev.OnlyFields d [(.BND_STS_ERR, 0), (.BND_STS_ERR_OFFSET, 0)]

/-- O32. OPEN, ABANDON, SELECT and an undefined OP of BND_CMD (R589, R612). -/
def Obligations.BondStoreCommands : Prop :=
  ∀ (s : State) (t i : BitVec 4) (slot : BitVec 32), s.Awake 228 → s.dev.rf .BND_STS_BUSY ≠ 1 →
    let err (d : Dev) (e : Nat) (d0 : Dev) : Prop := d.rf .BND_STS_ERR = e ∧ d0.OnlyFields d [(.BND_STS_ERR, 0), (.BND_STS_ERR_OFFSET, 0)]
    (s.dev.led.store = none → t.toNat ≤ 6 → (t.toNat = 3 → i.toNat < 8) →
      ∃ d, exec (.bndOpen t i) s = .next { s with dev := d } ∧
        err d 0 { s.dev with led.store := some { target := t.toNat, index := i.toNat, bytes := [] } }) ∧
    (s.dev.led.store ≠ none → ∃ d, exec (.bndOpen t i) s = .next { s with dev := d } ∧ err d 0xB s.dev) ∧
    (s.dev.led.store ≠ none → ∃ d, exec .bndAbandon s = .next { s with dev := d } ∧ err d 0 { s.dev with led.store := none }) ∧
    (s.dev.led.store = none → ∃ d, exec .bndAbandon s = .next { s with dev := d } ∧ err d 0xB s.dev) ∧
    (slot.toNat ≤ 1 → ∃ d, exec (.bndSelect slot) s = .next { s with dev := d } ∧ d.rf .BND_STS_SELECTED = slot.toNat ∧ d.rf .BND_STS_ERR = 0 ∧
      ({ s.dev with led.selected := slot.toNat } : Dev).OnlyFields d
        [(.BND_STS_SELECTED, 0), (.BND_STS_ERR, 0), (.BND_STS_ERR_OFFSET, 0)]) ∧
    (1 < slot.toNat → ∃ d, exec (.bndSelect slot) s = .next { s with dev := d } ∧ err d 8 s.dev) ∧
    (∃ d, exec .bndCmdBadOp s = .next { s with dev := d } ∧ err d 2 s.dev)

/-- O33. LOG_FREE frees every slot, or the one slot that it names (R645). -/
def Obligations.LogFreeFreesSlots : Prop :=
  ∀ (s : State) (slot : BitVec 13), s.Awake 228 →
    exec (.logFree true slot) s = .next { s with dev := { s.dev with err.log := [] } } ∧
    ∃ l, exec (.logFree false slot) s = .next { s with dev := { s.dev with err.log := l } } ∧
      kget l slot.toNat = none ∧ ∀ j, j ≠ slot.toNat → kget l j = kget s.dev.err.log j

/-- O34. TELEMETRY_TICK writes one 64-byte entry that begins with GT, and counts anew (R643). -/
def Obligations.TelemetryEntryAtTheTail : Prop :=
  ∀ (s : State), s.pkg.mode = .on →
    (s.dev.rf .ERR_TLM_CFG_EN ≠ 1 → exec .telemetryTick s = .next s) ∧
    (s.dev.rf .ERR_TLM_CFG_EN = 1 → s.dev.rf .ERR_TLM_CFG_STREAM ≠ 1 →
      ∃ d, exec .telemetryTick s = .next { s with dev := d } ∧
        (∃ e, kget d.err.tlmRing (s.dev.rf .ERR_TLM_PTR_TAIL % 16384) = some e ∧ e.length = 64 ∧ e.take 8 = leBytes 8 s.dev.gt) ∧
        (∀ j, j ≠ s.dev.rf .ERR_TLM_PTR_TAIL % 16384 → kget d.err.tlmRing j = kget s.dev.err.tlmRing j) ∧
        d.err.tlm = { t0r := 0, t0w := 0, t1r := 0, cells := 0, busy := 0, recs := 0, logs := 0 } ∧
        d.rf .ERR_TLM_PTR_TAIL = (s.dev.rf .ERR_TLM_PTR_TAIL + 1) % 2 ^ Fld.ERR_TLM_PTR_TAIL.width ∧
        ({ s.dev with err.tlm := d.err.tlm, err.tlmRing := d.err.tlmRing } : Dev).OnlyFields d [(.ERR_TLM_PTR_TAIL, 0)])

/-- O35. HBM_REFRESH and CALIBRATION go to their unit; BACKGROUND_DEFER marks its unit once (R631, R632). -/
def Obligations.BackgroundWorkRows : Prop :=
  ∀ (s : State) (u : Fin 32) (cls : Fin 3), s.pkg.mode = .on →
    exec (.hbmRefresh u) s = .next { s with dev := { s.dev with
      out := .refresh u.val :: s.dev.out, err.refresh := kput s.dev.err.refresh u.val (sget 0 s.dev.err.refresh u.val + 1) } } ∧
    exec (.calibration u) s = .next { s with dev := { s.dev with
      out := .refresh (64 + u.val) :: s.dev.out,
      err.refresh := kput s.dev.err.refresh (64 + u.val) (sget 0 s.dev.err.refresh (64 + u.val) + 1) } } ∧
    ∃ l, exec (.backgroundDefer cls u) s = .next { s with dev := { s.dev with err.bg := l } } ∧
      ∀ x, x ∈ l ↔ x ∈ s.dev.err.bg ∨ x = (cls.val, u.val)

/-- O36. REINSTATE returns a member to MEMBER with P = 0, and PROBATION applies that state (R663). -/
def Obligations.ManagerSetsViews : Prop :=
  ∀ (s : State) (x : BitVec 8), s.Awake 228 →
    (s.dev.member x.toNat = true → x.toNat ≠ s.dev.devnum →
      (∃ d, exec (.reinstate x) s = .next { s with dev := d } ∧ d.rf .TLY_DEV_STATE x.toNat = 1 ∧ d.rf .TLY_DEV_PENALTY x.toNat = 0 ∧
        d.rf .TLY_DEV_SCORE x.toNat = 255 ∧
        s.dev.OnlyFields d [(.TLY_DEV_STATE, x.toNat), (.TLY_DEV_PENALTY, x.toNat), (.TLY_DEV_SCORE, x.toNat)]) ∧
      (∃ d, exec (.probation x) s = .next { s with dev := d } ∧ d.rf .TLY_DEV_STATE x.toNat = 2 ∧
        s.dev.OnlyFields d [(.TLY_DEV_STATE, x.toNat)])) ∧
    (s.dev.member x.toNat = false → exec (.reinstate x) s = .next s ∧ exec (.probation x) s = .next s ∧ exec (.expel x) s = .next s)

/-- O37. CMP_ABORT discards the staged table, GRACE_END ends the grace (R671, R672). -/
def Obligations.AbortAndGraceEnd : Prop :=
  ∀ (s : State), s.Awake 228 →
    (∃ d, exec .cmpAbort s = .next { s with dev := d } ∧ d.rf .CMP_STS_STAGED_V = 0 ∧ s.dev.OnlyFields d [(.CMP_STS_STAGED_V, 0)]) ∧
    (∃ d, exec .graceEnd s = .next { s with dev := d } ∧ d.rf .CMP_STS_GRACE = 0 ∧ s.dev.OnlyFields d [(.CMP_STS_GRACE, 0)])

/-- O38. SHADE_IDLE takes a running domain to Shaded, DIM_IDLE an Engine-group domain to Dim (R696). -/
def Obligations.IdleDomainsGoShadedAndDim : Prop :=
  ∀ (s : State) (k : Fin 264), s.pkg.mode = .on →
    let st := s.dev.rf .PWR_DOM_STS_STATE k
    let busy : Prop := k.val < 144 ∧ (s.dev.mason k).run ≠ none
    let dims : Prop := k.val < 209 ∧ (st = 1 ∨ st = 2) ∧ s.dev.rf .PWR_POLICY_DIM_IDLE ≠ 0 ∧
      bit (s.dev.rf .PWR_POLICY_DIM_GROUPS) (dimBit k) = true ∧ ¬ busy
    (st = 1 → ¬ busy → ∃ d, exec (.shadeIdle k) s = .next { s with dev := d } ∧ d.rf .PWR_DOM_STS_STATE k = 2 ∧
      s.dev.OnlyFields d [(.PWR_DOM_STS_STATE, k)]) ∧
    (st ≠ 1 ∨ busy → exec (.shadeIdle k) s = .next s) ∧
    (dims → ∃ d, exec (.dimIdle k) s = .next { s with dev := d } ∧ d.rf .PWR_DOM_STS_STATE k = 3 ∧
      s.dev.OnlyFields d [(.PWR_DOM_STS_STATE, k)]) ∧
    (¬ dims → exec (.dimIdle k) s = .next s)

/-- O39. INLET_HOT sets CAPPED only on a device of grade E (R755, R691). -/
def Obligations.InletHotCapsGradeE : Prop :=
  ∀ (s : State), s.pkg.mode = .on →
    ∃ d, exec .inletHot s = .next { s with dev := d } ∧ d.pwr.hot = !s.dev.pwr.hot ∧
      (d.rf .CLK_ACLK_THR_CAPPED = 1 ↔ s.dev.pwr.hot = false ∧ s.dev.rf .SEC_DEVID_GRADE_E = 1) ∧
      ({ s.dev with pwr.hot := !s.dev.pwr.hot } : Dev).OnlyFields d [(.CLK_ACLK_THR_CAPPED, 0), (.CLK_ACLK_THR_EFFECTIVE, 0)]

/-- O40. POWER_APPLIED awaits RESET_N, RESET_N_RELEASE raises SEQ_EN0, each PG that completes a stage raises the next SEQ_EN, and PG_TIMEOUT
fails it (R741, R742). -/
def Obligations.RailsRiseInOrder : Prop :=
  ∀ (s : State), (s.pkg.mode = .wait → s.pkg.stagePg 0 = false →
      exec .resetNRelease s = .next { s with pkg := { s.pkg with
        mode := .up 0, en0 := true, en1 := false, en2 := false, en3 := false, resetN := true, fault := false } }) ∧
    (∀ (rail : Fin 9) (k : Fin 4), s.pkg.mode = .up k →
      let p := s.pkg.setPg rail true
      (p.stagePg k = false → ∃ t, exec (.pgRise rail) s = .next t ∧ t.pkg.mode = .up k ∧ t.dev = s.dev) ∧
      (∀ h : k.val < 3, p.stagePg k = true → p.stagePg ⟨k.val + 1, by omega⟩ = false →
        ∃ t, exec (.pgRise rail) s = .next t ∧ t.pkg.mode = .up ⟨k.val + 1, by omega⟩ ∧ t.pkg.Sound ∧ t.dev = s.dev) ∧
      (k.val = 3 → p.stagePg k = true → ∃ t, exec (.pgRise rail) s = .next t ∧ t.pkg.mode = .on ∧ t.pkg.Sound ∧
        t.dev.pwr.rise = baseDomains.map (fun b => (b, 2, 0)) ∧ t.dev.regs = s.dev.regs ∧ t.dev.mem = s.dev.mem) ∧
      (railStage rail = k → s.pkg.pg.getLsbD rail.val = false →
        ∃ t, exec (.pgTimeout rail) s = .next t ∧ t.pkg.mode = .down k ∧ t.pkg.Sound ∧ t.pkg.pg = s.pkg.pg ∧
          t.pkg.resetN = s.pkg.resetN ∧ t.pkg.again = !s.dev.pwr.repeated ∧ t.pkg.fault = (s.dev.pwr.repeated || s.pkg.fault))) ∧
    (∀ modules : List Nat, s.pkg.mode = .off →
      ∃ t, exec (.powerApplied modules) s = .next t ∧ t.pkg.mode = .wait ∧ t.pkg.Sound ∧ t.pkg.pg = s.pkg.pg ∧ t.pkg.resetN = false ∧
        t.pkg.fault = false ∧ t.pkg.therm = false ∧ t.dev.pwr.modules = modules ∧ t.dev.gt = 0)

/-- O41. RESET_N_HOLD lowers SEQ_EN3 first, each PG fallen or timed out the stage below it, and loss of VDD_AON all at once (R743, R744). -/
def Obligations.RailsFallInOrder : Prop :=
  ∀ (s : State),
    (s.pkg.mode = .on → ∃ t, exec .resetNHold s = .next t ∧ t.pkg.mode = .down 3 ∧ t.pkg.en0 = true ∧ t.pkg.en1 = true ∧ t.pkg.en2 = true ∧
      t.pkg.en3 = false ∧ t.pkg.resetN = false) ∧
    (∀ (rail : Fin 9) (k : Fin 4) (h : 0 < k.val), s.pkg.mode = .down k → (s.pkg.setPg rail false).stagePg k = false →
      ∃ t, exec (.pgFall rail) s = .next t ∧ t.pkg.mode = .down ⟨k.val - 1, by omega⟩ ∧ t.pkg.Sound ∧ t.dev = s.dev) ∧
    (∀ (rail : Fin 9) (k : Fin 4) (h : 0 < k.val), s.pkg.mode = .down k → railStage rail = k →
      ∃ t, exec (.pgTimeout rail) s = .next t ∧ t.pkg.mode = .down ⟨k.val - 1, by omega⟩ ∧ t.pkg.Sound ∧ t.pkg.pg = s.pkg.pg ∧ t.dev = s.dev) ∧
    (s.pkg.mode ≠ .off → ∃ t, exec .aonUndervoltage s = .next t ∧ t.pkg.mode = .off ∧ t.pkg.en0 = false ∧ t.pkg.en1 = false ∧
      t.pkg.en2 = false ∧ t.pkg.en3 = false ∧ ∀ c ∈ t.dev.mem, 0x20000 * 2 ^ 28 ≤ c.1)

/-- O42. No command but the nine of the package moves the sequencer, and none changes the queue (20_package_and_ordering). -/
def Obligations.OnlyThePackageMovesTheSequencer : Prop :=
  ∀ (c : Instr) (s : State), ∃ t, exec c s = .next t ∧ t.pending = s.pending ∧
    (c.ofPackage = false → t.pkg = s.pkg ∧ (s.pkg.mode ≠ .on → t = s))

/-- O43. Every step keeps the SEQ_EN outputs in agreement with where the sequencer stands (R741, R742, R743, R744). -/
def Obligations.SequencerStaysSound : Prop :=
  ∀ (s t : State), s.pkg.Sound → step s = .next t → t.pkg.Sound

/-- O44. Every command of Extents and HDM decoders completes with its effect (02_pool_addresses). -/
def Obligations.ExtentCommandsComplete : Prop :=
  ∀ (s : State), s.pkg.mode = .on →
    (∀ (chamber : Fin 16), exec (.assign chamber) s = .next { s with dev := (s.dev.touch 228).assign chamber.val }) ∧
    (exec .seal s = .next { s with dev := (s.dev.touch 228).seal }) ∧
    (exec .free s = .next { s with dev := (s.dev.touch 228).freeCmd }) ∧
    (exec .lendAttach s = .next { s with dev := (s.dev.touch 228).lendAttach }) ∧
    (exec .remoteAttach s = .next { s with dev := (s.dev.touch 228).remoteAttach }) ∧
    (exec .detach s = .next { s with dev := (s.dev.touch 228).detach }) ∧
    (exec .extCmdBadOp s = .next { s with dev := (s.dev.touch 228).extCommand 0 0 }) ∧
    (exec .extentZeroingDone s = .next { s with dev := s.dev.extZeroed.laterGo }) ∧
    (exec .extentDrainDone s = .next { s with dev := s.dev.extDrained.laterGo }) ∧
    (∀ (port : Fin 16) (dec : Fin 8) (base : BitVec 52) (size : BitVec 64), exec (.hdmCommit port dec base size) s = .next { s with dev := (s.dev.usePort port.val).hdmCommit port.val dec.val base.toNat size.toNat })

/-- O45. Every command of links and the Hub completes with its effect (03_fabric_ports_and_hub). -/
def Obligations.LinkCommandsComplete : Prop :=
  ∀ (s : State), s.pkg.mode = .on →
    (∀ (port : Fin 18) (raw : Bytes), exec (.flitReceive port raw) s = .next { s with dev := s.dev.anyFlit port.val raw }) ∧
    (∀ (port : Fin 18), exec (.ackTimer port) s = .next { s with dev := s.dev.ackTimer port.val }) ∧
    (∀ (port : Fin 16), exec (.retrainDone port) s = .next { s with dev := s.dev.retrainDone port.val }) ∧
    (∀ (port : Fin 16) (lane : Fin 10), exec (.laneLossOfLock port lane) s = .next { s with dev := s.dev.laneLock port.val lane.val }) ∧
    (∀ (port : Fin 16) (lane : Fin 10), exec (.laneFecWindow port lane) s = .next { s with dev := s.dev.laneWindow port.val lane.val }) ∧
    (∀ (port : Fin 16) (ok : Bool) (width4 : Bool) (rate : BitVec 2), exec (.portTrainingDone port ok width4 rate) s = .next { s with dev := s.dev.trained port.val ok width4 rate.toNat }) ∧
    (∀ (port : Fin 16), exec (.trainingTimeout port) s = .next { s with dev := s.dev.trainTimeout port.val }) ∧
    (∀ (input : Fin 40) (cell : Cell), exec (.hubCellArrival input cell) s = .next { s with dev := (s.dev.touch 226).cellArrival input.val cell }) ∧
    (∀ (frame : HubFrame), exec (.hubFrameArrival frame) s = .next { s with dev := (s.dev.touch 226).frameArrival frame }) ∧
    (exec .hubMatch s = .next { s with dev := s.dev.hubMatch }) ∧
    (exec .hubEgress s = .next { s with dev := s.dev.hubEgress })

/-- O46. Every command of Mortar and CXL coherence completes with its effect (04_mortar_coherence). -/
def Obligations.MortarCommandsComplete : Prop :=
  ∀ (s : State), s.pkg.mode = .on →
    (∀ (port : Fin 16) (msg : Msg), exec (.rdShared port msg) s = .next { s with dev := (s.dev.usePort port.val).rdShared port.val msg }) ∧
    (∀ (port : Fin 16) (msg : Msg), exec (.rdOwn port msg) s = .next { s with dev := (s.dev.usePort port.val).rdOwn port.val msg }) ∧
    (∀ (port : Fin 16) (msg : Msg), exec (.rdOnce port msg) s = .next { s with dev := (s.dev.usePort port.val).rdOnce port.val msg }) ∧
    (∀ (port : Fin 16) (msg : Msg), exec (.wrLine port msg) s = .next { s with dev := (s.dev.usePort port.val).wrLineMsg port.val msg }) ∧
    (∀ (port : Fin 16) (msg : Msg), exec (.wrPartial port msg) s = .next { s with dev := (s.dev.usePort port.val).wrPartial port.val msg }) ∧
    (∀ (port : Fin 16) (msg : Msg), exec (.atomic port msg) s = .next { s with dev := (s.dev.usePort port.val).atomicMsg port.val msg }) ∧
    (∀ (port : Fin 16) (msg : Msg), exec (.sweep port msg) s = .next { s with dev := (s.dev.usePort port.val).sweepMsg port.val msg }) ∧
    (∀ (port : Fin 16) (msg : Msg), exec (.fence port msg) s = .next { s with dev := (s.dev.usePort port.val).fenceMsg port.val msg }) ∧
    (∀ (port : Fin 16) (msg : Msg), exec (.evict port msg) s = .next { s with dev := (s.dev.usePort port.val).evictMsg port.val msg |>.revokesGo }) ∧
    (∀ (port : Fin 16) (msg : Msg), exec (.recallMsg port msg) s = .next { s with dev := (s.dev.usePort port.val).recallFor port.val msg }) ∧
    (∀ (port : Fin 16) (msg : Msg), exec (.invalMsg port msg) s = .next { s with dev := (s.dev.usePort port.val).invalFor port.val msg }) ∧
    (∀ (port : Fin 16) (msg : Msg), exec (.retry port msg) s = .next { s with dev := (s.dev.usePort port.val).retryMsg port.val msg }) ∧
    (∀ (port : Fin 16) (msg : Msg), exec (.grant port msg) s = .next { s with dev := (s.dev.usePort port.val).grantMsg port.val msg }) ∧
    (∀ (port : Fin 16) (msg : Msg), exec (.data port msg) s = .next { s with dev := (s.dev.usePort port.val).dataArrives port.val msg |>.revokesGo }) ∧
    (∀ (port : Fin 16) (msg : Msg), exec (.poisonData port msg) s = .next { s with dev := (s.dev.usePort port.val).poisonArrives port.val msg |>.revokesGo }) ∧
    (∀ (port : Fin 16) (msg : Msg), exec (.ack port msg) s = .next { s with dev := (s.dev.usePort port.val).ackArrives port.val msg |>.revokesGo }) ∧
    (exec .sweepScanDone s = .next { s with dev := s.dev.scanDone }) ∧
    (∀ (id : Nat) (errs : List LineErr), exec (.tierServiceDone id errs) s = .next { s with dev := s.dev.tierServiceDone id errs |>.revokesGo }) ∧
    (∀ (line : Nat) (agent : BitVec 16), exec (.recallTimeout line agent) s = .next { s with dev := s.dev.recallTimeout line agent.toNat |>.revokesGo }) ∧
    (∀ (line : Nat) (agent : BitVec 16), exec (.invalTimeout line agent) s = .next { s with dev := s.dev.invalTimeout line agent.toNat |>.revokesGo }) ∧
    (∀ (src : BitVec 16) (tag : BitVec 20), exec (.reqTimeout src tag) s = .next { s with dev := s.dev.reqTimeout src.toNat tag.toNat |>.revokesGo }) ∧
    (∀ (ticket : Nat), exec (.ticketExpire ticket) s = .next { s with dev := s.dev.ticketExpire ticket }) ∧
    (∀ (id : Nat), exec (.hold id) s = .next { s with dev := s.dev.holdDue id }) ∧
    (∀ (agent : BitVec 16), exec (.fenceComplete agent) s = .next { s with dev := s.dev.fenceComplete agent.toNat }) ∧
    (∀ (id : Nat), exec (.releaseAtomicSend id) s = .next { s with dev := s.dev.releaseSend id }) ∧
    (∀ (port : Fin 16) (req : CxlReq), exec (.memRd port req) s = .next { s with dev := (s.dev.usePort port.val).memRd port.val req }) ∧
    (∀ (port : Fin 16) (req : CxlReq), exec (.memRdData port req) s = .next { s with dev := (s.dev.usePort port.val).memRdData port.val req }) ∧
    (∀ (port : Fin 16) (req : CxlReq), exec (.memWr port req) s = .next { s with dev := (s.dev.usePort port.val).memWr port.val req }) ∧
    (∀ (port : Fin 16) (req : CxlReq), exec (.memWrPtl port req) s = .next { s with dev := (s.dev.usePort port.val).memWrPtl port.val req }) ∧
    (∀ (port : Fin 16) (req : CxlReq), exec (.memClnEvct port req) s = .next { s with dev := (s.dev.usePort port.val).memClnEvct port.val req }) ∧
    (∀ (port : Fin 16) (req : CxlReq), exec (.memInv port req) s = .next { s with dev := (s.dev.usePort port.val).memInv port.val req }) ∧
    (exec .memSpecRd s = .next { s with dev := s.dev }) ∧
    (∀ (port : Fin 16) (req : CxlReq), exec (.biRspS port req) s = .next { s with dev := (s.dev.usePort port.val).biRspS port.val req |>.revokesGo }) ∧
    (∀ (port : Fin 16) (req : CxlReq), exec (.biRspI port req) s = .next { s with dev := (s.dev.usePort port.val).biRspI port.val req |>.revokesGo }) ∧
    (∀ (port : Fin 16) (req : CxlReq), exec (.biConflict port req) s = .next { s with dev := (s.dev.usePort port.val).biConflict port.val req }) ∧
    (exec .biConflictAck s = .next { s with dev := s.dev })

/-- O47. Every command of Chambers, rings and descriptors completes with its effect (06_chambers_and_work_rings). -/
def Obligations.ChamberCommandsComplete : Prop :=
  ∀ (s : State), s.pkg.mode = .on →
    (∀ (chamber : Fin 16), exec (.chamberEnable chamber) s = .next { s with dev := (s.dev.touch 228).chamberEnable chamber.val }) ∧
    (∀ (chamber : Fin 16), exec (.chamberDisable chamber) s = .next { s with dev := (s.dev.touch 228).chamberDisable chamber.val }) ∧
    (∀ (chamber : Fin 16), exec (.chamberReset chamber) s = .next { s with dev := (s.dev.touch 228).chamberReset chamber.val }) ∧
    (∀ (chamber : Fin 16), exec (.drainTimeout chamber) s = .next { s with dev := (s.dev.drainTimeout chamber.val).endGone }) ∧
    (∀ (chamber : Fin 16), exec (.disableComplete chamber) s = .next { s with dev := s.dev.disableComplete chamber.val }) ∧
    (∀ (chamber : Fin 16), exec (.chamberResetDone chamber) s = .next { s with dev := s.dev.chamberResetDone chamber.val }) ∧
    (∀ (chamber : Fin 16) (ring : Fin 64) (tail : BitVec 32), exec (.doorbell chamber ring tail) s = .next { s with dev := (s.dev.touch 227).doorbell chamber.val ring.val tail.toNat }) ∧
    (∀ (chamber : Fin 16) (ring : Fin 64) (chead : BitVec 32), exec (.completionHeadWrite chamber ring chead) s = .next { s with dev := (s.dev.touch 227).setChead chamber.val ring.val chead.toNat }) ∧
    (∀ (chamber : Fin 16) (ring : Fin 64) (sizeLog2 : BitVec 5), exec (.ringEnable chamber ring sizeLog2) s = .next { s with dev := (s.dev.touch 227).ringEnable chamber.val ring.val sizeLog2.toNat }) ∧
    (∀ (chamber : Fin 16) (ring : Fin 64), exec (.ringDisable chamber ring) s = .next { s with dev := (s.dev.touch 227).ringDisable chamber.val ring.val }) ∧
    (∀ (chamber : Fin 16) (ring : Fin 64), exec (.descriptorAdmit chamber ring) s = .next { s with dev := s.dev.descriptorAdmit chamber.val ring.val }) ∧
    (∀ (id : Nat), exec (.descriptorFetchDone id) s = .next { s with dev := s.dev.descriptorFetched id }) ∧
    (∀ (id : Nat), exec (.nop id) s = .next { s with dev := s.dev.nop id }) ∧
    (∀ (id : Nat), exec (.atomicDescriptor id) s = .next { s with dev := (s.dev.useBarrow id).atomicDesc id }) ∧
    (∀ (chamber : Fin 16) (ring : Fin 64), exec (.signalAgeTimer chamber ring) s = .next { s with dev := s.dev.signalAge chamber.val ring.val }) ∧
    (∀ (id : Nat), exec (.opTimeout id) s = .next { s with dev := (s.dev.opTimeout id).endGone })

/-- O48. Every command of tiers, settles, schedules and cartridges completes with its effect (07_tiers_and_settle). -/
def Obligations.TierCommandsComplete : Prop :=
  ∀ (s : State), s.pkg.mode = .on →
    (∀ (id : Nat), exec (.copy id) s = .next { s with dev := (s.dev.useBarrow id).copy id }) ∧
    (∀ (id : Nat), exec (.placeStage id) s = .next { s with dev := s.dev.place id 0 }) ∧
    (∀ (id : Nat), exec (.placePromote id) s = .next { s with dev := s.dev.place id 1 }) ∧
    (∀ (id : Nat), exec (.placePin id) s = .next { s with dev := s.dev.place id 2 }) ∧
    (∀ (id : Nat), exec (.placeUnpin id) s = .next { s with dev := s.dev.place id 3 }) ∧
    (∀ (id : Nat), exec (.placeRelease id) s = .next { s with dev := s.dev.place id 4 }) ∧
    (∀ (staging : Bool) (frame : Nat) (bad : BitVec 16), exec (.frameFillDone staging frame bad) s = .next { s with dev := s.dev.frameFillDone (if staging then .stage else .promo) frame bad.toNat }) ∧
    (∀ (id : Nat), exec (.settle id) s = .next { s with dev := s.dev.settle id }) ∧
    (∀ (id : Nat), exec (.settleStart id) s = .next { s with dev := s.dev.settleStart id }) ∧
    (∀ (slot : Fin 64) (errs : List LineErr) (bad : List Nat), exec (.settleChunkDone slot errs bad) s = .next { s with dev := s.dev.settleChunk slot.val errs bad }) ∧
    (∀ (id : Nat), exec (.schedule id) s = .next { s with dev := s.dev.schedule id }) ∧
    (∀ (id : Nat) (entry : Nat), exec (.scheduleEntryTrigger id entry) s = .next { s with dev := s.dev.schedEntry id entry false }) ∧
    (∀ (id : Nat) (entry : Nat), exec (.scheduleTimer id entry) s = .next { s with dev := s.dev.schedEntry id entry true }) ∧
    (∀ (slot : BitVec 4) (target : BitVec 4), exec (.cartTransfer slot target) s = .next { s with dev := (s.dev.touch 228).cartTransfer slot.toNat target.toNat }) ∧
    (∀ (slot : BitVec 4) (target : BitVec 4), exec (.cartTakeover slot target) s = .next { s with dev := (s.dev.touch 228).cartTakeover slot.toNat target.toNat }) ∧
    (∀ (slot : BitVec 4), exec (.cartRetire slot) s = .next { s with dev := (s.dev.touch 228).cartRetire slot.toNat }) ∧
    (∀ (slot : BitVec 4), exec (.cartRelease slot) s = .next { s with dev := (s.dev.touch 228).cartRelease slot.toNat }) ∧
    (exec .cartCmdBadOp s = .next { s with dev := (s.dev.touch 228).cartCommand 0 0 0 }) ∧
    (exec .transferExtentDone s = .next { s with dev := s.dev.transferExtent }) ∧
    (∀ (slot : Fin 9) (command : Nat) (bad : BitVec 16) (ident : CartIdent), exec (.nvmeCommandDone slot command bad ident) s = .next { s with dev := (s.dev.useCart slot.val).nvmeDone slot.val command bad.toNat ident }) ∧
    (∀ (slot : Fin 9), exec (.cartCmdTimeout slot) s = .next { s with dev := s.dev.cartTimeout slot.val }) ∧
    (∀ (slot : Fin 9), exec (.cartFailureReport slot) s = .next { s with dev := s.dev.cartReport slot.val }) ∧
    (∀ (slot : Fin 9), exec (.cartRemoved slot) s = .next { s with dev := s.dev.cartRemoved slot.val }) ∧
    (∀ (slot : Fin 9), exec (.cartInserted slot) s = .next { s with dev := s.dev.cartInserted slot.val }) ∧
    (∀ (slot : Fin 9), exec (.cartLinkUp slot) s = .next { s with dev := s.dev.cartLinkUp slot.val }) ∧
    (∀ (slot : Fin 9), exec (.cartAuthTimeout slot) s = .next { s with dev := s.dev.authTimeout slot.val })

/-- O49. Every command of translation, invalidation and faults completes with its effect (08_translation_and_faults). -/
def Obligations.TranslationCommandsComplete : Prop :=
  ∀ (s : State), s.pkg.mode = .on →
    (∀ (id : Nat), exec (.pteReadDone id) s = .next { s with dev := (s.dev.pteRead id).goOn }) ∧
    (∀ (chamber : Fin 16), exec (.faultBatchAge chamber) s = .next { s with dev := s.dev.faultBatchAge chamber.val }) ∧
    (∀ (chamber : Fin 16) (batch : BitVec 32), exec (.faultResume chamber batch) s = .next { s with dev := (s.dev.touch 228).faultResume chamber.val batch.toNat }) ∧
    (∀ (chamber : Fin 16) (head : BitVec 32), exec (.fqHeadWrite chamber head) s = .next { s with dev := (s.dev.touch 228).fqHeadWrite chamber.val head.toNat }) ∧
    (∀ (port : Fin 16) (msg : Msg), exec (.xinv port msg) s = .next { s with dev := (s.dev.usePort port.val).xinv port.val msg }) ∧
    (∀ (chamber : Fin 16) (page : BitVec 36) (all : Bool) (pages : BitVec 24), exec (.invalidateRegister chamber page all pages) s = .next { s with dev := (s.dev.touch 228).invalidateRegister chamber.val page.toNat all pages.toNat }) ∧
    (∀ (chamber : Fin 16), exec (.xinvAckReady chamber) s = .next { s with dev := s.dev.xinvAckReady chamber.val }) ∧
    (∀ (chamber : Fin 16), exec (.xinvAckTimeout chamber) s = .next { s with dev := s.dev.xinvAckTimeout chamber.val }) ∧
    (∀ (chamber : Fin 16) (root : BitVec 41), exec (.rootWrite chamber root) s = .next { s with dev := (s.dev.touch 228).rootWrite chamber.val root.toNat }) ∧
    (exec .accessCounterDecay s = .next { s with dev := s.dev.counterDecay })

/-- O50. Every command of Masons and Lay lists completes with its effect (09_masons_and_lay_lists). -/
def Obligations.MasonCommandsComplete : Prop :=
  ∀ (s : State), s.pkg.mode = .on →
    (∀ (id : Nat), exec (.run id) s = .next { s with dev := s.dev.run id }) ∧
    (∀ (id : Nat), exec (.runStart id) s = .next { s with dev := s.dev.runStart id }) ∧
    (∀ (id : Nat), exec (.layListFetchDone id) s = .next { s with dev := s.dev.layFetched id }) ∧
    (∀ (mason : Fin 144), exec (.nopBrick mason) s = .next { s with dev := (s.dev.touch mason.val).nopBrick mason.val }) ∧
    (∀ (mason : Fin 144), exec (.endBrick mason) s = .next { s with dev := (s.dev.touch mason.val).endBrick mason.val }) ∧
    (∀ (mason : Fin 144), exec (.sync mason) s = .next { s with dev := (s.dev.touch mason.val).syncBrick mason.val }) ∧
    (∀ (mason : Fin 144), exec (.loop mason) s = .next { s with dev := (s.dev.touch mason.val).loopBrick mason.val }) ∧
    (∀ (mason : Fin 144), exec (.seta mason) s = .next { s with dev := (s.dev.touch mason.val).setaBrick mason.val }) ∧
    (∀ (mason : Fin 144), exec (.signal mason) s = .next { s with dev := (s.dev.touch mason.val).signalBrick mason.val }) ∧
    (∀ (mason : Fin 144), exec (.semwait mason) s = .next { s with dev := (s.dev.touch mason.val).semwaitBrick mason.val }) ∧
    (∀ (mason : Fin 144), exec (.semset mason) s = .next { s with dev := (s.dev.touch mason.val).semsetBrick mason.val }) ∧
    (∀ (mason : Fin 144), exec (.semwaitRelease mason) s = .next { s with dev := (s.dev.touch mason.val).semwaitRelease mason.val }) ∧
    (∀ (mason : Fin 144), exec (.atomicBrick mason) s = .next { s with dev := (s.dev.touch mason.val).atomicBrick mason.val }) ∧
    (∀ (mason : Fin 144), exec (.tload mason) s = .next { s with dev := (s.dev.touch mason.val).tloadBrick mason.val }) ∧
    (∀ (mason : Fin 144), exec (.tstore mason) s = .next { s with dev := (s.dev.touch mason.val).tstoreBrick mason.val }) ∧
    (∀ (mason : Fin 144), exec (.tcopy mason) s = .next { s with dev := (s.dev.touch mason.val).tcopyBrick mason.val }) ∧
    (∀ (mason : Fin 144), exec (.mma mason) s = .next { s with dev := (s.dev.touch mason.val).mmaBrick mason.val }) ∧
    (∀ (mason : Fin 144), exec (.accst mason) s = .next { s with dev := (s.dev.touch mason.val).accstBrick mason.val }) ∧
    (∀ (mason : Fin 144), exec (.accld mason) s = .next { s with dev := (s.dev.touch mason.val).accldBrick mason.val }) ∧
    (∀ (mason : Fin 144), exec (.vop mason) s = .next { s with dev := (s.dev.touch mason.val).vopBrick mason.val }) ∧
    (∀ (mason : Fin 144), exec (.vred mason) s = .next { s with dev := (s.dev.touch mason.val).vredBrick mason.val }) ∧
    (∀ (mason : Fin 144), exec (.attendBrick mason) s = .next { s with dev := (s.dev.touch mason.val).attendBrick mason.val }) ∧
    (∀ (mason : Fin 144) (unit : Fin 4), exec (.brickDone mason unit) s = .next { s with dev := (s.dev.touch mason.val).brickDone mason.val unit.val }) ∧
    (∀ (mason : Fin 144), exec (.brickTimeout mason) s = .next { s with dev := s.dev.brickTimeout mason.val }) ∧
    (∀ (id : Nat), exec (.runComplete id) s = .next { s with dev := s.dev.runComplete id }) ∧
    (∀ (course : Fin 16) (sem : Fin 64) (value : BitVec 32), exec (.semWrite course sem value) s = .next { s with dev := (s.dev.touch 227).semWrite course.val sem.val value.toNat })

/-- O51. Every command of Flowstone completes with its effect (10_flowstone). -/
def Obligations.FlowstoneCommandsComplete : Prop :=
  ∀ (s : State), s.pkg.mode = .on →
    (∀ (id : Nat), exec (.compress id) s = .next { s with dev := (s.dev.useBarrow id).compress id }) ∧
    (∀ (id : Nat), exec (.expand id) s = .next { s with dev := (s.dev.useBarrow id).expand id }) ∧
    (∀ (id : Nat), exec (.tables id) s = .next { s with dev := s.dev.tables id }) ∧
    (∀ (id : Nat), exec (.tablesInstall id) s = .next { s with dev := s.dev.tablesInstall id })

/-- O52. Every command of Hoards and handoffs completes with its effect (11_hoards). -/
def Obligations.HoardCommandsComplete : Prop :=
  ∀ (s : State), s.pkg.mode = .on →
    (∀ (id : Nat), exec (.create id) s = .next { s with dev := (s.dev.hoardCreate id).endGone }) ∧
    (∀ (id : Nat), exec (.append id) s = .next { s with dev := (s.dev.hoardAppend id).endGone }) ∧
    (∀ (id : Nat), exec (.hoardSeal id) s = .next { s with dev := (s.dev.hoardSeal id).endGone }) ∧
    (∀ (id : Nat), exec (.hoardAttend id) s = .next { s with dev := (s.dev.hoardAttend id).endGone }) ∧
    (∀ (id : Nat), exec (.attendFallbackWait id) s = .next { s with dev := (s.dev.attendWait id).endGone }) ∧
    (∀ (id : Nat), exec (.fetch id) s = .next { s with dev := (s.dev.hoardFetch id).endGone }) ∧
    (∀ (id : Nat), exec (.drop id) s = .next { s with dev := (s.dev.hoardDrop id).endGone }) ∧
    (∀ (chamber : Fin 16), exec (.hoardPagesFree chamber) s = .next { s with dev := (s.dev.hoardPagesFree chamber.val).endGone }) ∧
    (∀ (id : Nat), exec (.pin id) s = .next { s with dev := (s.dev.hoardPin id).endGone }) ∧
    (∀ (id : Nat), exec (.relink id) s = .next { s with dev := (s.dev.relink id).endGone }) ∧
    (∀ (port : Fin 16) (msg : Msg), exec (.hreq port msg) s = .next { s with dev := ((s.dev.usePort port.val).hreq port.val msg).endGone }) ∧
    (∀ (port : Fin 16) (msg : Msg), exec (.hrsp port msg) s = .next { s with dev := ((s.dev.usePort port.val).hrsp port.val msg).endGone }) ∧
    (∀ (port : Fin 16) (msg : Msg), exec (.hxfer port msg) s = .next { s with dev := ((s.dev.usePort port.val).hxfer port.val msg).endGone }) ∧
    (∀ (port : Fin 16) (msg : Msg), exec (.hctlCommitReq port msg) s = .next { s with dev := ((s.dev.usePort port.val).hctlCommitReq port.val msg).endGone }) ∧
    (∀ (port : Fin 16) (msg : Msg), exec (.hctlCommitted port msg) s = .next { s with dev := ((s.dev.usePort port.val).hctlCommitted port.val msg).endGone }) ∧
    (∀ (port : Fin 16) (msg : Msg), exec (.hctlRefused port msg) s = .next { s with dev := ((s.dev.usePort port.val).hctlRefused port.val msg).endGone }) ∧
    (∀ (port : Fin 16) (msg : Msg), exec (.hctlQuery port msg) s = .next { s with dev := ((s.dev.usePort port.val).hctlQuery port.val msg).endGone }) ∧
    (∀ (port : Fin 16) (msg : Msg), exec (.hctlAbort port msg) s = .next { s with dev := ((s.dev.usePort port.val).hctlAbort port.val msg).endGone }) ∧
    (∀ (chamber : Fin 16) (bucket : Fin 256) (dev : BitVec 8) (prev : BitVec 8) (prevV : Bool), exec (.bucketWrite chamber bucket dev prev prevV) s = .next { s with dev := ((s.dev.touch 228).bucketWrite chamber.val bucket.val dev.toNat prev.toNat prevV).endGone }) ∧
    (∀ (id : Nat), exec (.handoffTimeout id) s = .next { s with dev := (s.dev.handoffTimeout id).endGone }) ∧
    (∀ (id : Nat), exec (.handoffQueryTimer id) s = .next { s with dev := (s.dev.handoffQuery id).endGone })

/-- O53. Every command of embedding tables completes with its effect (12_embedding_tables). -/
def Obligations.TableCommandsComplete : Prop :=
  ∀ (s : State), s.pkg.mode = .on →
    (∀ (id : Nat), exec (.lookup2 id) s = .next { s with dev := (s.dev.lookup2 id).endGone }) ∧
    (∀ (id : Nat), exec (.lookup id) s = .next { s with dev := (s.dev.lookup id).endGone }) ∧
    (∀ (id : Nat), exec (.scatter id) s = .next { s with dev := (s.dev.scatter id).endGone }) ∧
    (∀ (id : Nat), exec (.publish id) s = .next { s with dev := (s.dev.publish id).endGone }) ∧
    (∀ (id : Nat), exec (.replicate id) s = .next { s with dev := (s.dev.replicate id).endGone }) ∧
    (∀ (id : Nat), exec (.migrate id) s = .next { s with dev := (s.dev.migrate id).endGone }) ∧
    (∀ (port : Fin 16) (msg : Msg), exec (.tlkup port msg) s = .next { s with dev := ((s.dev.usePort port.val).tlkup port.val msg).endGone }) ∧
    (∀ (port : Fin 16) (msg : Msg), exec (.trsp port msg) s = .next { s with dev := ((s.dev.usePort port.val).trsp port.val msg).endGone }) ∧
    (∀ (port : Fin 16) (msg : Msg), exec (.tgrad port msg) s = .next { s with dev := ((s.dev.usePort port.val).tgrad port.val msg).endGone }) ∧
    (∀ (port : Fin 16) (msg : Msg), exec (.tctlStage port msg) s = .next { s with dev := ((s.dev.usePort port.val).tctlStage port.val msg).endGone }) ∧
    (∀ (port : Fin 16) (msg : Msg), exec (.tctlFlip port msg) s = .next { s with dev := ((s.dev.usePort port.val).tctlFlip port.val msg).endGone }) ∧
    (∀ (port : Fin 16) (msg : Msg), exec (.tctlAbandon port msg) s = .next { s with dev := ((s.dev.usePort port.val).tctlAbandon port.val msg).endGone }) ∧
    (∀ (port : Fin 16) (msg : Msg), exec (.tctlQuery port msg) s = .next { s with dev := ((s.dev.usePort port.val).tctlQuery port.val msg).endGone }) ∧
    (∀ (port : Fin 16) (msg : Msg), exec (.tctlReserve port msg) s = .next { s with dev := ((s.dev.usePort port.val).tctlReserve port.val msg).endGone }) ∧
    (∀ (port : Fin 16) (msg : Msg), exec (.tctlCopy port msg) s = .next { s with dev := ((s.dev.usePort port.val).tctlCopy port.val msg).endGone }) ∧
    (∀ (port : Fin 16) (msg : Msg), exec (.tctlLog port msg) s = .next { s with dev := ((s.dev.usePort port.val).tctlLog port.val msg).endGone }) ∧
    (∀ (port : Fin 16) (msg : Msg), exec (.tctlRoute port msg) s = .next { s with dev := ((s.dev.usePort port.val).tctlRoute port.val msg).endGone }) ∧
    (∀ (port : Fin 16) (msg : Msg), exec (.tctlRelease port msg) s = .next { s with dev := ((s.dev.usePort port.val).tctlRelease port.val msg).endGone }) ∧
    (∀ (port : Fin 16) (msg : Msg), exec (.tctlRepl port msg) s = .next { s with dev := ((s.dev.usePort port.val).tctlRepl port.val msg).endGone }) ∧
    (∀ (port : Fin 16) (msg : Msg), exec (.tctlDone port msg) s = .next { s with dev := ((s.dev.usePort port.val).tctlDone port.val msg).endGone }) ∧
    (∀ (port : Fin 16) (msg : Msg), exec (.tctlMismatch port msg) s = .next { s with dev := ((s.dev.usePort port.val).tctlMismatch port.val msg).endGone }) ∧
    (∀ (port : Fin 16) (msg : Msg), exec (.tctlRefused port msg) s = .next { s with dev := ((s.dev.usePort port.val).tctlRefused port.val msg).endGone }) ∧
    (∀ (key : Nat), exec (.publishTimeout key) s = .next { s with dev := (s.dev.publishTimeout key).endGone }) ∧
    (∀ (key : Nat), exec (.flipResendTimer key) s = .next { s with dev := (s.dev.flipResend key).endGone }) ∧
    (∀ (key : Nat), exec (.publishQueryTimer key) s = .next { s with dev := (s.dev.publishQuery key).endGone }) ∧
    (∀ (chamber : Fin 16) (table : BitVec 28), exec (.versionRetire chamber table) s = .next { s with dev := (s.dev.versionRetire chamber.val table.toNat).endGone }) ∧
    (∀ (key : Nat), exec (.moveTimeout key) s = .next { s with dev := (s.dev.moveTimeout key).endGone }) ∧
    (∀ (key : Nat), exec (.routeResendTimer key) s = .next { s with dev := (s.dev.routeResend key).endGone }) ∧
    (exec .sketchDecay s = .next { s with dev := s.dev.sketchDecay }) ∧
    (∀ (slot : Fin 8) (chamber : Fin 16) (table : BitVec 28) (en : Bool), exec (.sketchWrite slot chamber table en) s = .next { s with dev := (s.dev.touch 228).sketchWrite slot.val chamber.val table.toNat en })

/-- O54. Every command of Gallery search completes with its effect (13_gallery_search). -/
def Obligations.GalleryCommandsComplete : Prop :=
  ∀ (s : State), s.pkg.mode = .on →
    (∀ (id : Nat), exec (.search id) s = .next { s with dev := (s.dev.search id).endGone }) ∧
    (∀ (id : Nat), exec (.galleryWaitTimeout id) s = .next { s with dev := (s.dev.galleryWait id).endGone }) ∧
    (∀ (id : Nat), exec (.insert id) s = .next { s with dev := (s.dev.galInsert id).endGone }) ∧
    (∀ (id : Nat), exec (.delete id) s = .next { s with dev := (s.dev.galDelete id).endGone }) ∧
    (∀ (id : Nat), exec (.compact id) s = .next { s with dev := (s.dev.compact id).endGone }) ∧
    (∀ (id : Nat), exec (.compactLeafStart id) s = .next { s with dev := (s.dev.compactLeaf id).endGone }) ∧
    (∀ (port : Fin 16) (msg : Msg), exec (.gqry port msg) s = .next { s with dev := ((s.dev.usePort port.val).gqry port.val msg).endGone }) ∧
    (∀ (port : Fin 16) (msg : Msg), exec (.grsp port msg) s = .next { s with dev := ((s.dev.usePort port.val).grsp port.val msg).endGone }) ∧
    (∀ (chamber : Fin 16), exec (.galCacheClr chamber) s = .next { s with dev := (s.dev.touch 228).galCacheClr chamber.val })

/-- O55. Every command of the network, gateways and the Portal completes with its effect (14_network_and_gateways). -/
def Obligations.NetworkCommandsComplete : Prop :=
  ∀ (s : State), s.pkg.mode = .on →
    (∀ (port : Fin 8) (frame : EthFrame), exec (.ethFrameReceive port frame) s = .next { s with dev := (s.dev.useEth port.val).ethReceive port.val frame }) ∧
    (∀ (port : Fin 8) (frame : EthFrame), exec (.arpNdEcho port frame) s = .next { s with dev := (s.dev.useEth port.val).arpNdEcho port.val frame }) ∧
    (∀ (port : Fin 8) (prio : Fin 8) (quanta : BitVec 16), exec (.pfcPauseReceive port prio quanta) s = .next { s with dev := s.dev.pfcPause port.val prio.val quanta.toNat }) ∧
    (∀ (port : Fin 8) (frame : EthFrame), exec (.rdmaRead port frame) s = .next { s with dev := (s.dev.useEth port.val).rdmaRead port.val frame }) ∧
    (∀ (port : Fin 8) (frame : EthFrame), exec (.rdmaWrite port frame) s = .next { s with dev := (s.dev.useEth port.val).rdmaWrite port.val frame }) ∧
    (∀ (port : Fin 8) (frame : EthFrame), exec (.rdmaReadResponse port frame) s = .next { s with dev := (s.dev.useEth port.val).rdmaReadResponse port.val frame }) ∧
    (∀ (port : Fin 8) (frame : EthFrame), exec (.roceAck port frame) s = .next { s with dev := (s.dev.useEth port.val).roceAck port.val frame }) ∧
    (∀ (port : Fin 8) (frame : EthFrame), exec (.roceNak port frame) s = .next { s with dev := (s.dev.useEth port.val).roceNak port.val frame }) ∧
    (∀ (port : Fin 8) (frame : EthFrame), exec (.cnp port frame) s = .next { s with dev := (s.dev.useEth port.val).cnp port.val frame }) ∧
    (∀ (qp : Fin 4096), exec (.rateIncreaseTimer qp) s = .next { s with dev := s.dev.rateIncrease qp.val }) ∧
    (∀ (qp : Fin 4096), exec (.qpRetransmitTimeout qp) s = .next { s with dev := s.dev.qpTimeout qp.val }) ∧
    (∀ (qp : Fin 4096), exec (.qpReset qp) s = .next { s with dev := (s.dev.touch 228).qpReset qp.val }) ∧
    (∀ (qp : Fin 4096), exec (.qpRts qp) s = .next { s with dev := (s.dev.touch 228).qpRts qp.val }) ∧
    (∀ (id : Nat), exec (.wflush id) s = .next { s with dev := s.dev.wflush id }) ∧
    (∀ (id : Nat), exec (.winval id) s = .next { s with dev := s.dev.winval id }) ∧
    (∀ (port : Fin 8) (frame : EthFrame), exec (.portalV2Request port frame) s = .next { s with dev := (s.dev.useEth port.val).portalV2 port.val frame }) ∧
    (∀ (port : Fin 8) (frame : EthFrame), exec (.portalV1Request port frame) s = .next { s with dev := (s.dev.useEth port.val).portalV1 port.val frame }) ∧
    (∀ (key : Nat), exec (.portalReply key) s = .next { s with dev := s.dev.portalReply key }) ∧
    (∀ (src : Nat) (sport : BitVec 16) (reqid : Nat), exec (.replyCacheExpire src sport reqid) s = .next { s with dev := s.dev.cacheExpire src sport.toNat reqid }) ∧
    (∀ (port : Fin 8) (frame : EthFrame), exec (.ptpEventMessage port frame) s = .next { s with dev := (s.dev.useEth port.val).ptpEvent port.val frame })

/-- O56. Every command of the Bond, identity and the Ledger completes with its effect (15_bond_and_trust). -/
def Obligations.BondCommandsComplete : Prop :=
  ∀ (s : State), s.pkg.mode = .on →
    (∀ (target : BitVec 4) (index : BitVec 4), exec (.bndOpen target index) s = .next { s with dev := (s.dev.touch 228).bndOpen target.toNat index.toNat }) ∧
    (∀ (arg : BitVec 32), exec (.bndData arg) s = .next { s with dev := (s.dev.touch 228).bndData arg.toNat }) ∧
    (exec .bndClose s = .next { s with dev := (s.dev.touch 228).bndClose }) ∧
    (exec .bndAbandon s = .next { s with dev := (s.dev.touch 228).bndAbandon }) ∧
    (∀ (slot : BitVec 32), exec (.bndSelect slot) s = .next { s with dev := (s.dev.touch 228).bndSelect slot.toNat }) ∧
    (exec .load s = .next { s with dev := (s.dev.touch 228).bndLoad }) ∧
    (∀ (chamber : Fin 16), exec (.chbApply chamber) s = .next { s with dev := (s.dev.touch 228).chbApply chamber.val }) ∧
    (exec .attest s = .next { s with dev := (s.dev.touch 228).attest }) ∧
    (exec .floorPropose s = .next { s with dev := (s.dev.touch 228).floorPropose }) ∧
    (∀ (arg : BitVec 32), exec (.jread arg) s = .next { s with dev := (s.dev.touch 228).jread arg.toNat }) ∧
    (exec .bndCmdBadOp s = .next { s with dev := (s.dev.touch 228).bndBadOp }) ∧
    (exec .journalRecordCommit s = .next { s with dev := (s.dev.recordCommit).endGone })

/-- O57. Every command of errors, scrub and telemetry completes with its effect (16_errors_scrub_and_counters). -/
def Obligations.ErrorCommandsComplete : Prop :=
  ∀ (s : State), s.pkg.mode = .on →
    (∀ (id : Nat) (errs : List LineErr) (bad : List Nat), exec (.scrub id errs bad) s = .next { s with dev := s.dev.scrub id errs bad }) ∧
    (∀ (t2 : Bool) (errs : List LineErr) (bad : List Nat), exec (.scrubStart t2 errs bad) s = .next { s with dev := (s.dev.touch 228).scrubStart t2 errs bad }) ∧
    (∀ (all : Bool) (slot : BitVec 13), exec (.logFree all slot) s = .next { s with dev := (s.dev.touch 228).logFree all slot.toNat }) ∧
    (exec .telemetryTick s = .next { s with dev := s.dev.telemetryTick }) ∧
    (∀ (cls : Fin 3) (unit : Fin 32), exec (.backgroundDefer cls unit) s = .next { s with dev := s.dev.backgroundDefer cls.val unit.val }) ∧
    (∀ (unit : Fin 32), exec (.hbmRefresh unit) s = .next { s with dev := s.dev.hbmRefresh unit.val }) ∧
    (∀ (unit : Fin 32), exec (.calibration unit) s = .next { s with dev := s.dev.calibration unit.val })

/-- O58. Every command of Tally and live composition completes with its effect (17_tally_and_composition). -/
def Obligations.TallyCommandsComplete : Prop :=
  ∀ (s : State), s.pkg.mode = .on →
    (exec .tallyTick s = .next { s with dev := (s.dev.useHaresh).tallyTick }) ∧
    (∀ (port : Option (Fin 16)) (msg : Msg), exec (.tscore port msg) s = .next { s with dev := (s.dev.usePath port).tscore (port.map Fin.val) msg }) ∧
    (∀ (port : Option (Fin 16)) (msg : Msg), exec (.texpel port msg) s = .next { s with dev := (s.dev.usePath port).texpel (port.map Fin.val) msg }) ∧
    (∀ (device : BitVec 8), exec (.reinstate device) s = .next { s with dev := (s.dev.touch 228).reinstate device.toNat }) ∧
    (∀ (device : BitVec 8), exec (.expel device) s = .next { s with dev := (s.dev.touch 228).expelCmd device.toNat }) ∧
    (∀ (device : BitVec 8), exec (.probation device) s = .next { s with dev := (s.dev.touch 228).probationCmd device.toNat }) ∧
    (∀ (port : Fin 16) (msg : Msg), exec (.emark port msg) s = .next { s with dev := (s.dev.usePort port.val).emark port.val msg }) ∧
    (∀ (port : Fin 16) (msg : Msg), exec (.rerte port msg) s = .next { s with dev := (s.dev.usePort port.val).rerte port.val msg }) ∧
    (∀ (port : Fin 16) (msg : Msg), exec (.lrevoke port msg) s = .next { s with dev := (s.dev.usePort port.val).lrevoke port.val msg }) ∧
    (∀ (first : BitVec 20) (count : BitVec 12), exec (.cmpRevoke first count) s = .next { s with dev := (s.dev.touch 228).cmpRevoke first.toNat count.toNat }) ∧
    (exec .revokeTimeout s = .next { s with dev := s.dev.oldestRevokeTimeout }) ∧
    (∀ (port : Fin 16) (msg : Msg), exec (.bmir port msg) s = .next { s with dev := (s.dev.usePort port.val).bmir port.val msg }) ∧
    (∀ (pair : Fin 64) (bseq : BitVec 32), exec (.bmirTimeout pair bseq) s = .next { s with dev := s.dev.bmirTimeout pair.val bseq.toNat }) ∧
    (∀ (pair : Fin 64), exec (.buttressEnable pair) s = .next { s with dev := (s.dev.touch 228).buttressEnable pair.val }) ∧
    (∀ (pair : Fin 64), exec (.buttressCopyDone pair) s = .next { s with dev := s.dev.buttressCopyDone pair.val }) ∧
    (∀ (epoch : BitVec 8), exec (.cmpStage epoch) s = .next { s with dev := (s.dev.touch 228).cmpStage epoch.toNat }) ∧
    (∀ (epoch : BitVec 8), exec (.cmpCommit epoch) s = .next { s with dev := (s.dev.touch 228).cmpCommit epoch.toNat }) ∧
    (exec .cmpAbort s = .next { s with dev := (s.dev.touch 228).cmpAbort }) ∧
    (exec .graceEnd s = .next { s with dev := s.dev.graceEnd }) ∧
    (∀ (winner : BitVec 8) (chamber : Fin 16) (slot : BitVec 20), exec (.resolve winner chamber slot) s = .next { s with dev := (s.dev.touch 228).cmpResolve winner.toNat chamber.val slot.toNat })

/-- O59. Every command of power, clocks, resets and the package completes with its effect (18_clocks_power_and_reset, 20_package_and_ordering). -/
def Obligations.PowerCommandsComplete : Prop :=
  ∀ (s : State), s.pkg.mode = .on →
    (∀ (modules : List Nat), exec (.powerApplied modules) s = .next { s with pkg := (powerApplied modules (s.pkg, s.dev)).1, dev := (powerApplied modules (s.pkg, s.dev)).2 }) ∧
    (exec .resetNRelease s = .next { s with pkg := (resetRelease (s.pkg, s.dev)).1, dev := (resetRelease (s.pkg, s.dev)).2 }) ∧
    (exec .resetNHold s = .next { s with pkg := (resetHold (s.pkg, s.dev)).1, dev := (resetHold (s.pkg, s.dev)).2 }) ∧
    (∀ (rail : Fin 9), exec (.pgRise rail) s = .next { s with pkg := (pgRise rail (s.pkg, s.dev)).1, dev := (pgRise rail (s.pkg, s.dev)).2 }) ∧
    (∀ (rail : Fin 9), exec (.pgFall rail) s = .next { s with pkg := (pgFall rail (s.pkg, s.dev)).1, dev := (pgFall rail (s.pkg, s.dev)).2 }) ∧
    (∀ (rail : Fin 9), exec (.pgTimeout rail) s = .next { s with pkg := (pgTimeout rail (s.pkg, s.dev)).1, dev := (pgTimeout rail (s.pkg, s.dev)).2 }) ∧
    (exec .aonUndervoltage s = .next { s with pkg := (aonUndervoltage (s.pkg, s.dev)).1, dev := (aonUndervoltage (s.pkg, s.dev)).2 }) ∧
    (∀ (domain : Fin 264), exec (.readySignal domain) s = .next { s with dev := s.dev.readySignal domain.val }) ∧
    (∀ (domain : Fin 264), exec (.riseTimeout domain) s = .next { s with pkg := (riseLate domain.val (s.pkg, s.dev)).1, dev := (riseLate domain.val (s.pkg, s.dev)).2 }) ∧
    (∀ (refLost : Bool), exec (.clockFault refLost) s = .next { s with dev := s.dev.clockFault refLost }) ∧
    (∀ (domain : Fin 264), exec (.shadeIdle domain) s = .next { s with dev := s.dev.shadeIdle domain.val }) ∧
    (∀ (domain : Fin 264), exec (.dimIdle domain) s = .next { s with dev := s.dev.dimIdle domain.val }) ∧
    (exec .wakeN s = .next { s with dev := s.dev.wakeN (s.dev.rb .PWR_WAKE_CFG_EDGE) }) ∧
    (exec .hareshSignalDetect s = .next { s with dev := s.dev.wakePackage }) ∧
    (exec .dark s = .next { s with dev := (s.dev.touch 228).dark }) ∧
    (exec .wake s = .next { s with dev := (s.dev.touch 228).wakePackage }) ∧
    (exec .coldReset s = .next { s with dev := (s.dev.touch 228).pwrRst 1 0 }) ∧
    (exec .warmReset s = .next { s with dev := (s.dev.touch 228).pwrRst 2 0 }) ∧
    (∀ (port : Fin 16), exec (.portReset port) s = .next { s with dev := (s.dev.touch 228).pwrRst 3 port.val }) ∧
    (exec .inletHot s = .next { s with dev := s.dev.inletHot (!s.dev.pwr.hot) }) ∧
    (∀ (temps : List Nat), exec (.thermalSample temps) s = .next { s with pkg := (thermalSample temps (s.pkg, s.dev)).1, dev := (thermalSample temps (s.pkg, s.dev)).2 })

/-- O60. Every command of control space and timers of registers completes with its effect (19_register_map). -/
def Obligations.RegisterCommandsComplete : Prop :=
  ∀ (s : State), s.pkg.mode = .on →
    (∀ (iface : Fin 18) (offset : BitVec 32) (len : Nat) (value : BitVec 64), exec (.registerWrite iface offset len value) s = .next { s with dev := (s.dev.registerWrite iface.val offset.toNat len value.toNat).endGone }) ∧
    (∀ (iface : Fin 18) (offset : BitVec 32), exec (.wideRegisterCapture iface offset) s = .next { s with dev := s.dev.wideCapture iface.val offset.toNat }) ∧
    (∀ (id : Nat), exec (.moveGraceEnd id) s = .next { s with dev := (s.dev.moveGraceEnd id).endGone }) ∧
    (exec .ptpLossOfLock s = .next { s with dev := s.dev.ptpLoss }) ∧
    (∀ (port : Fin 8) (prio : Fin 8), exec (.receivedPauseExpiry port prio) s = .next { s with dev := s.dev.pauseExpiry port.val prio.val })
end

