-- ==== Sys2Proof/Laws/Store.lean ====
section
/-!
SUPPORT. Laws of the sparse tables: a read after a write, and that writes keep the canonical form.
-/

namespace Sys2Proof.Machine

variable {α : Type}

@[simp] theorem kget_kput_same (m : Map α) (k : Nat) (v : α) : kget (kput m k v) k = some v := by
  induction m with
  | nil => simp [kput, kget]
  | cons e m ih =>
    obtain ⟨k', v'⟩ := e
    unfold kput
    split
    · simp [kget]
    · split
      · simp [kget]
      · next h => simp [kget, Ne.symm h, ih]

theorem kget_kput_other (m : Map α) {k j : Nat} (v : α) (h : j ≠ k) : kget (kput m k v) j = kget m j := by
  induction m with
  | nil => simp [kput, kget, h.symm]
  | cons e m ih =>
    obtain ⟨k', v'⟩ := e
    unfold kput
    split
    · simp [kget, h.symm]
    · split
      · next h' => subst h'; simp [kget, h.symm]
      · simp [kget, ih]

@[simp] theorem kget_kdel_same (m : Map α) (k : Nat) : kget (kdel m k) k = none := by
  induction m with
  | nil => rfl
  | cons e m ih =>
    obtain ⟨k', v'⟩ := e
    unfold kdel
    split
    · exact ih
    · next h => simp [kget, h, ih]

theorem kget_kdel_other (m : Map α) {k j : Nat} (h : j ≠ k) : kget (kdel m k) j = kget m j := by
  induction m with
  | nil => rfl
  | cons e m ih =>
    obtain ⟨k', v'⟩ := e
    unfold kdel
    split
    · next h' => subst h'; simp [kget, h.symm, ih]
    · simp [kget, ih]

@[simp] theorem sget_sput_same [DecidableEq α] (d : α) (m : Map α) (k : Nat) (v : α) : sget d (sput d m k v) k = v := by
  unfold sget sput
  split
  · next h => simp [h]
  · simp

theorem sget_sput_other [DecidableEq α] (d : α) (m : Map α) {k j : Nat} (v : α) (h : j ≠ k) :
    sget d (sput d m k v) j = sget d m j := by
  unfold sget sput
  split
  · simp [kget_kdel_other m h]
  · simp [kget_kput_other m v h]

/-! ### The canonical form -/

theorem keysAbove_mono {k k' : Nat} (m : Map α) (h : k ≤ k') (hm : keysAbove k' m = true) : keysAbove k m = true := by
  induction m with
  | nil => rfl
  | cons e m ih =>
    simp only [keysAbove, Bool.and_eq_true, decide_eq_true_eq] at hm ⊢
    exact ⟨by omega, ih hm.2⟩

theorem keysAbove_kput {j : Nat} (m : Map α) (k : Nat) (v : α) (hm : keysAbove j m = true) (h : j < k) :
    keysAbove j (kput m k v) = true := by
  induction m with
  | nil => simp [kput, keysAbove, h]
  | cons e m ih =>
    obtain ⟨k', v'⟩ := e
    simp only [keysAbove, Bool.and_eq_true, decide_eq_true_eq] at hm
    unfold kput
    split
    · simp [keysAbove, h, hm.1, hm.2]
    · split
      · simp [keysAbove, h, hm.2]
      · simp [keysAbove, hm.1, ih hm.2]

theorem keysAbove_kdel {j : Nat} (m : Map α) (k : Nat) (hm : keysAbove j m = true) : keysAbove j (kdel m k) = true := by
  induction m with
  | nil => rfl
  | cons e m ih =>
    simp only [keysAbove, Bool.and_eq_true, decide_eq_true_eq] at hm
    unfold kdel
    split
    · exact ih hm.2
    · simp [keysAbove, hm.1, ih hm.2]

theorem keysRise_kput (m : Map α) (k : Nat) (v : α) (hm : keysRise m = true) : keysRise (kput m k v) = true := by
  induction m with
  | nil => simp [kput, keysRise, keysAbove]
  | cons e m ih =>
    obtain ⟨k', v'⟩ := e
    simp only [keysRise, Bool.and_eq_true] at hm
    unfold kput
    split
    · next h => simp [keysRise, keysAbove, h, hm.1, hm.2, keysAbove_mono m (Nat.le_of_lt h) hm.1]
    · split
      · next h => subst h; simp [keysRise, hm.1, hm.2]
      · next h h' => simp [keysRise, ih hm.2, keysAbove_kput m k v hm.1 (by omega)]

theorem keysRise_kdel (m : Map α) (k : Nat) (hm : keysRise m = true) : keysRise (kdel m k) = true := by
  induction m with
  | nil => rfl
  | cons e m ih =>
    simp only [keysRise, Bool.and_eq_true] at hm
    unfold kdel
    split
    · exact ih hm.2
    · simp [keysRise, ih hm.2, keysAbove_kdel m k hm.1]

theorem mem_kput {e : Nat × α} (m : Map α) (k : Nat) (v : α) (h : e ∈ kput m k v) : e = (k, v) ∨ e ∈ m := by
  induction m with
  | nil => simpa [kput] using h
  | cons x m ih =>
    obtain ⟨k', v'⟩ := x
    unfold kput at h
    split at h
    · exact List.mem_cons.1 h
    · split at h
      · rcases List.mem_cons.1 h with h | h
        · exact .inl h
        · exact .inr (List.mem_cons_of_mem _ h)
      · rcases List.mem_cons.1 h with h | h
        · exact .inr (h ▸ List.mem_cons_self)
        · exact (ih h).imp_right (List.mem_cons_of_mem _)

theorem mem_kdel {e : Nat × α} (m : Map α) (k : Nat) (h : e ∈ kdel m k) : e ∈ m := by
  induction m with
  | nil => simp [kdel] at h
  | cons x m ih =>
    unfold kdel at h
    split at h
    · exact List.mem_cons_of_mem _ (ih h)
    · rcases List.mem_cons.1 h with h | h
      · exact h ▸ List.mem_cons_self
      · exact List.mem_cons_of_mem _ (ih h)

/-- A write keeps the canonical form of a table with one default. -/
theorem canonical_sput [DecidableEq α] (d : α) (m : Map α) (k : Nat) (v : α) (h : canonical (fun _ => d) m = true) :
    canonical (fun _ => d) (sput d m k v) = true := by
  simp only [canonical, Bool.and_eq_true, List.all_eq_true, decide_eq_true_eq] at h ⊢
  unfold sput
  split
  · exact ⟨keysRise_kdel m k h.1, fun e he => h.2 e (mem_kdel m k he)⟩
  · next hv =>
    refine ⟨keysRise_kput m k v h.1, fun e he => ?_⟩
    rcases mem_kput m k v he with rfl | he
    · exact hv
    · exact h.2 e he

end Sys2Proof.Machine
end

