-- ==== Sys2Proof/Laws/Regs.lean ====
section
/-!
SUPPORT. Laws of register fields: what a field reads after a write to it, to another instance or to another field; and what a write leaves.
-/

namespace Sys2Proof.Machine

theorem Fld.ctorIdx_lt (f : Fld) : f.ctorIdx < 1024 := by cases f <;> decide

theorem Fld.ctorIdx_inj {f g : Fld} (h : f.ctorIdx = g.ctorIdx) : f = g := by
  have := congrArg Fld.ofNat h
  simpa [Fld.ofNat_ctorIdx] using this

theorem fldKey_inj {f g : Fld} {i j : Nat} (h : fldKey f i = fldKey g j) : f = g ∧ i = j := by
  have hf := f.ctorIdx_lt
  have hg := g.ctorIdx_lt
  unfold fldKey at h
  exact ⟨Fld.ctorIdx_inj (by omega), by omega⟩

@[simp] theorem Dev.rf_wf_same (d : Dev) (f : Fld) (i v : Nat) : (d.wf f i v).rf f i = v % 2 ^ f.width := by
  simp [Dev.rf, Dev.wf]

theorem Dev.rf_wf_other (d : Dev) {f g : Fld} {i j : Nat} (v : Nat) (h : g ≠ f ∨ j ≠ i) : (d.wf f i v).rf g j = d.rf g j := by
  have hk : fldKey g j ≠ fldKey f i := fun e => by
    obtain ⟨a, b⟩ := fldKey_inj e
    rcases h with h | h
    · exact h a
    · exact h b
  unfold Dev.rf Dev.wf
  by_cases hfg : g = f
  · subst hfg; exact sget_sput_other _ _ _ hk
  · unfold sget sput
    split
    · simp [kget_kdel_other _ hk]
    · simp [kget_kput_other _ _ hk]

theorem Dev.rf_wf_field (d : Dev) {f g : Fld} (i j v : Nat) (h : g ≠ f) : (d.wf f i v).rf g j = d.rf g j :=
  d.rf_wf_other v (.inl h)

theorem Dev.rf_wf_index (d : Dev) {f : Fld} {i j : Nat} (v : Nat) (h : j ≠ i) : (d.wf f i v).rf f j = d.rf f j :=
  d.rf_wf_other v (.inr h)

@[simp] theorem Dev.wf_mem (d : Dev) (f : Fld) (i v : Nat) : (d.wf f i v).mem = d.mem := rfl
@[simp] theorem Dev.wf_gt (d : Dev) (f : Fld) (i v : Nat) : (d.wf f i v).gt = d.gt := rfl
@[simp] theorem Dev.wf_out (d : Dev) (f : Fld) (i v : Nat) : (d.wf f i v).out = d.out := rfl
@[simp] theorem Dev.wf_ext (d : Dev) (f : Fld) (i v : Nat) : (d.wf f i v).ext = d.ext := rfl
@[simp] theorem Dev.wf_pwr (d : Dev) (f : Fld) (i v : Nat) : (d.wf f i v).pwr = d.pwr := rfl
@[simp] theorem Dev.wf_ops (d : Dev) (f : Fld) (i v : Nat) : (d.wf f i v).ops = d.ops := rfl
@[simp] theorem Dev.wf_rings (d : Dev) (f : Fld) (i v : Nat) : (d.wf f i v).rings = d.rings := rfl
@[simp] theorem Dev.wf_tier (d : Dev) (f : Fld) (i v : Nat) : (d.wf f i v).tier = d.tier := rfl
@[simp] theorem Dev.wf_led (d : Dev) (f : Fld) (i v : Nat) : (d.wf f i v).led = d.led := rfl
@[simp] theorem Dev.wf_masons (d : Dev) (f : Fld) (i v : Nat) : (d.wf f i v).masons = d.masons := rfl
@[simp] theorem Dev.wf_coh (d : Dev) (f : Fld) (i v : Nat) : (d.wf f i v).coh = d.coh := rfl

theorem Dev.wf_regs_canonical (d : Dev) (f : Fld) (i v : Nat) (h : keysRise d.regs = true) : keysRise (d.wf f i v).regs = true := by
  simp only [Dev.wf, sput]
  split
  · exact keysRise_kdel _ _ h
  · exact keysRise_kput _ _ _ h

end Sys2Proof.Machine
end

