-- ==== Sys2Proof/Laws/State.lean ====
section
/-!
SUPPORT. Laws of `State`: each field after each of the two kinds of effect that commands have.
-/

namespace Sys2Proof.Machine

@[simp] theorem State.onDev_pkg (f : Dev → Dev) (s : State) : (s.onDev f).pkg = s.pkg := by
  unfold State.onDev; split <;> rfl
@[simp] theorem State.onDev_pending (f : Dev → Dev) (s : State) : (s.onDev f).pending = s.pending := by
  unfold State.onDev; split <;> rfl
theorem State.onDev_dev (f : Dev → Dev) (s : State) (h : s.pkg.mode = .on) : (s.onDev f).dev = f s.dev := by
  simp [State.onDev, h]
theorem State.onDev_on (f : Dev → Dev) (s : State) (h : s.pkg.mode = .on) : s.onDev f = { s with dev := f s.dev } := by
  simp [State.onDev, h]
theorem State.onDev_unpowered (f : Dev → Dev) (s : State) (h : s.pkg.mode ≠ .on) : s.onDev f = s := by
  simp [State.onDev, h]
@[simp] theorem State.onPkg_pkg (f : PkgDev → PkgDev) (s : State) : (s.onPkg f).pkg = (f (s.pkg, s.dev)).1 := rfl
@[simp] theorem State.onPkg_dev (f : PkgDev → PkgDev) (s : State) : (s.onPkg f).dev = (f (s.pkg, s.dev)).2 := rfl
@[simp] theorem State.onPkg_pending (f : PkgDev → PkgDev) (s : State) : (s.onPkg f).pending = s.pending := rfl
@[simp] theorem State.idle_pkg (s : State) : s.idle.pkg = s.pkg := by
  unfold State.idle; split
  · rfl
  · simp
@[simp] theorem State.idle_pending (s : State) : s.idle.pending = s.pending := by
  unfold State.idle; split
  · rfl
  · simp
@[simp] theorem State.reset_pkg : State.reset.pkg = resetPkg := rfl
@[simp] theorem State.reset_dev : State.reset.dev = blankDev := rfl
@[simp] theorem State.reset_pending : State.reset.pending = [] := rfl

end Sys2Proof.Machine
end

