-- ==== Sys2Proof/Laws/Frames.lean ====
section
/-!
SUPPORT. Laws of the frame: what `touch` does to a domain that runs, and how `OnlyFields` is shown one write at a time.
-/

namespace Sys2Proof.Machine

/-- A one-bit field read as a flag. -/
theorem Dev.rb_eq_true (d : Dev) (f : Fld) (i : Nat) : d.rb f i = true ↔ d.rf f i = 1 := by
  unfold Dev.rb
  exact beq_iff_eq

theorem Dev.rb_eq_false (d : Dev) (f : Fld) (i : Nat) : d.rb f i = false ↔ d.rf f i ≠ 1 := by
  unfold Dev.rb
  exact beq_eq_false_iff_ne

/-- Work in a domain that runs wakes nothing. -/
theorem Dev.touch_running {d : Dev} {k : Nat} (h : d.rf .PWR_DOM_STS_STATE k = 1) : d.touch k = d := by
  unfold Dev.touch
  rw [h]
  rfl

theorem State.Awake.touch {s : State} {k : Nat} (h : s.Awake k) : s.dev.touch k = s.dev := Dev.touch_running h.2

/-- With the rails up and the domain awake, an effect that wakes the domain first is the effect alone. -/
theorem State.Awake.onDev {s : State} {k : Nat} (h : s.Awake k) (f : Dev → Dev) :
    s.onDev (fun d => f (d.touch k)) = { s with dev := f s.dev } := by
  rw [State.onDev_on _ _ h.1, h.touch]

/-- A port's work wakes nothing where its own domain and the Hub's run. -/
theorem State.Awake.usePort {s : State} {p : Nat} (h : s.Awake (229 + p)) (h' : s.Awake 226) : s.dev.usePort p = s.dev := by
  unfold Dev.usePort
  rw [h.touch, h'.touch]

theorem Dev.OnlyFields.refl (d : Dev) (fs : List (Fld × Nat)) : d.OnlyFields d fs := ⟨rfl, fun _ _ _ => rfl⟩

theorem Dev.OnlyFields.write (d : Dev) {f : Fld} {i : Nat} (v : Nat) {fs : List (Fld × Nat)} (h : (f, i) ∈ fs) :
    d.OnlyFields (d.wf f i v) fs := by
  refine ⟨rfl, fun g j hg => Dev.rf_wf_other _ _ ?_⟩
  by_contra hc
  simp only [not_or, not_not] at hc
  obtain ⟨rfl, rfl⟩ := hc
  exact hg h

theorem Dev.OnlyFields.trans {a b c : Dev} {fs : List (Fld × Nat)} (h : a.OnlyFields b fs) (h' : b.OnlyFields c fs) : a.OnlyFields c fs := by
  refine ⟨?_, fun f i hf => (h'.2 f i hf).trans (h.2 f i hf)⟩
  rw [h'.1, h.1]

/-- One more write to a field of the list. -/
theorem Dev.OnlyFields.snoc {a b : Dev} {f : Fld} {i : Nat} {fs : List (Fld × Nat)} (h : a.OnlyFields b fs) (v : Nat) (hf : (f, i) ∈ fs) :
    a.OnlyFields (b.wf f i v) fs := h.trans (.write b v hf)

end Sys2Proof.Machine
end

