-- ==== Sys2Proof/Laws/Mem.lean ====
section
/-!
SUPPORT. Laws of home memory: the operations on it keep its canonical form, and leave every byte outside their range.
-/

namespace Sys2Proof.Machine

theorem keysAbove_iff {k : Nat} (m : List Host.Cell) : keysAbove k m = true ↔ ∀ c ∈ m, k < c.1 := by
  induction m with
  | nil => simp [keysAbove]
  | cons e m ih => simp [keysAbove, ih]

theorem keysRise_iff (m : List Host.Cell) : keysRise m = true ↔ m.Pairwise (fun a b => a.1 < b.1) := by
  induction m with
  | nil => simp [keysRise]
  | cons e m ih => simp [keysRise, ih, keysAbove_iff]

theorem memCanonical_iff (m : List Host.Cell) :
    memCanonical m = true ↔ m.Pairwise (fun a b => a.1 < b.1) ∧ ∀ c ∈ m, c.2 ≠ 0 := by
  simp [memCanonical, canonical, keysRise_iff]

theorem mem_cellsOf {c : Host.Cell} (l : Bytes) (a : Nat) (h : c ∈ cellsOf a l) : a ≤ c.1 ∧ c.1 < a + l.length ∧ c.2 ≠ 0 := by
  induction l generalizing a with
  | nil => simp [cellsOf] at h
  | cons b l ih =>
    unfold cellsOf at h
    split at h
    · have := ih (a + 1) h
      simp only [List.length_cons]
      exact ⟨by omega, by omega, this.2.2⟩
    · next hb =>
      rcases List.mem_cons.1 h with rfl | h
      · exact ⟨Nat.le_refl _, by simp, hb⟩
      · have := ih (a + 1) h
        simp only [List.length_cons]
        exact ⟨by omega, by omega, this.2.2⟩

theorem cellsOf_rise (l : Bytes) (a : Nat) : (cellsOf a l).Pairwise (fun x y => x.1 < y.1) := by
  induction l generalizing a with
  | nil => simp [cellsOf]
  | cons b l ih =>
    unfold cellsOf
    split
    · exact ih (a + 1)
    · exact List.pairwise_cons.2 ⟨fun c hc => (mem_cellsOf l (a + 1) hc).1, ih (a + 1)⟩

theorem splice_canonical (m : List Host.Cell) (a n : Nat) (new : List Host.Cell) (hm : memCanonical m = true)
    (hn : new.Pairwise (fun x y => x.1 < y.1)) (hr : ∀ c ∈ new, a ≤ c.1 ∧ c.1 < a + n ∧ c.2 ≠ 0) :
    memCanonical (splice m a n new) = true := by
  rw [memCanonical_iff] at hm ⊢
  unfold splice
  refine ⟨List.pairwise_append.2 ⟨List.pairwise_append.2 ⟨hm.1.filter _, hn, ?_⟩, hm.1.filter _, ?_⟩, ?_⟩
  · intro x hx y hy
    have h1 := (List.mem_filter.1 hx).2
    have h2 := hr y hy
    simp only [decide_eq_true_eq] at h1
    omega
  · intro x hx y hy
    have h2 := (List.mem_filter.1 hy).2
    simp only [decide_eq_true_eq] at h2
    rcases List.mem_append.1 hx with hx | hx
    · have h1 := (List.mem_filter.1 hx).2
      simp only [decide_eq_true_eq] at h1
      omega
    · have h1 := hr x hx
      omega
  · intro c hc
    rcases List.mem_append.1 hc with hc | hc
    · rcases List.mem_append.1 hc with hc | hc
      · exact hm.2 c (List.mem_filter.1 hc).1
      · exact (hr c hc).2.2
    · exact hm.2 c (List.mem_filter.1 hc).1

/-- Writing bytes keeps memory canonical. -/
theorem Dev.wrMem_canonical (d : Dev) (a : Nat) (l : Bytes) (h : memCanonical d.mem = true) : memCanonical (d.wrMem a l).mem = true :=
  splice_canonical _ _ _ _ h (cellsOf_rise l a) (fun _ hc => mem_cellsOf l a hc)

/-- Clearing a range keeps memory canonical. -/
theorem Dev.zeroMem_canonical (d : Dev) (a n : Nat) (h : memCanonical d.mem = true) : memCanonical (d.zeroMem a n).mem = true :=
  splice_canonical _ _ _ _ h List.Pairwise.nil (by simp)

/-- Copying a range keeps memory canonical. -/
theorem Dev.copyMem_canonical (d : Dev) (src dst n : Nat) (h : memCanonical d.mem = true) : memCanonical (d.copyMem src dst n).mem = true := by
  have hm := (memCanonical_iff _).1 h
  refine splice_canonical _ _ _ _ h ?_ ?_
  · refine List.pairwise_map.2 ((hm.1.filter _).imp_of_mem ?_)
    intro x y hx hy hxy
    have h1 := (List.mem_filter.1 hx).2
    have h2 := (List.mem_filter.1 hy).2
    simp only [decide_eq_true_eq] at h1 h2
    show x.1 - src + dst < y.1 - src + dst
    omega
  · intro c hc
    obtain ⟨x, hx, rfl⟩ := List.mem_map.1 hc
    have h1 := List.mem_filter.1 hx
    have h2 := h1.2
    simp only [decide_eq_true_eq] at h2
    exact ⟨Nat.le_add_left _ _, show x.1 - src + dst < dst + n by omega, hm.2 x h1.1⟩

theorem kget_append (m m' : List Host.Cell) (x : Nat) : kget (m ++ m') x = (kget m x).or (kget m' x) := by
  induction m with
  | nil => rfl
  | cons e m ih =>
    obtain ⟨k, v⟩ := e
    simp only [List.cons_append, kget]
    split <;> simp [ih]

theorem kget_filter (m : List Host.Cell) (p : Nat → Bool) (x : Nat) :
    kget (m.filter (fun c => p c.1)) x = if p x then kget m x else none := by
  induction m with
  | nil => simp [kget]
  | cons e m ih =>
    obtain ⟨k, v⟩ := e
    by_cases hk : k = x
    · subst hk
      by_cases hp : p k = true
      · simp [hp, kget]
      · simp [hp, ih]
    · by_cases hp : p k = true
      · simp [hp, kget, hk, ih]
      · simp [hp, kget, hk, ih]

theorem kget_none_of (m : List Host.Cell) (x : Nat) (h : ∀ c ∈ m, c.1 ≠ x) : kget m x = none := by
  induction m with
  | nil => rfl
  | cons e m ih =>
    have h0 := h e List.mem_cons_self
    simp only [kget, h0, if_false]
    exact ih (fun c hc => h c (List.mem_cons_of_mem _ hc))

/-- Outside the range that it replaces, a splice leaves every byte. -/
theorem sget_splice_outside (m : List Host.Cell) (a n : Nat) (new : List Host.Cell) (x : Nat)
    (hr : ∀ c ∈ new, a ≤ c.1 ∧ c.1 < a + n) (h : x < a ∨ a + n ≤ x) : sget 0 (splice m a n new) x = sget 0 m x := by
  have h0 : kget new x = none := kget_none_of new x (fun c hc => by have := hr c hc; omega)
  unfold sget splice
  rw [kget_append, kget_append, kget_filter m (fun k => decide (k < a)), kget_filter m (fun k => decide (a + n ≤ k)), h0]
  rcases h with h | h
  · have h2 : ¬ a + n ≤ x := by omega
    simp [h, h2]
  · have h2 : ¬ x < a := by omega
    simp [h, h2]

end Sys2Proof.Machine
end

