-- ==== Sys2Proof/Laws/Service.lean ====
section
/-!
SUPPORT. Laws of the link state, of the state of a Chamber, and of work of the service cores: what each update leaves, and everything that
`Dev.svc` can do.
-/

namespace Sys2Proof.Machine

@[simp] theorem Dev.link_setLink_same (d : Dev) (p : Nat) (l : Link) : (d.setLink p l).link_ p = l := by
  simp [Dev.link_, Dev.setLink, sget]

theorem Dev.link_setLink_other (d : Dev) {p q : Nat} (l : Link) (h : q ≠ p) : (d.setLink p l).link_ q = d.link_ q := by
  simp [Dev.link_, Dev.setLink, sget, kget_kput_other _ _ h]

@[simp] theorem Dev.setLink_regs (d : Dev) (p : Nat) (l : Link) : (d.setLink p l).regs = d.regs := rfl
@[simp] theorem Dev.setLink_mem (d : Dev) (p : Nat) (l : Link) : (d.setLink p l).mem = d.mem := rfl
@[simp] theorem Dev.setLink_out (d : Dev) (p : Nat) (l : Link) : (d.setLink p l).out = d.out := rfl
@[simp] theorem Dev.setLink_svcs (d : Dev) (p : Nat) (l : Link) : (d.setLink p l).svcs = d.svcs := rfl

@[simp] theorem Dev.chmSt_setChmSt_same (d : Dev) (c : Nat) (s : ChmSt) : (d.setChmSt c s).chmSt c = s := by
  simp [Dev.chmSt, Dev.setChmSt, sget]

theorem Dev.chmSt_setChmSt_other (d : Dev) {c b : Nat} (s : ChmSt) (h : b ≠ c) : (d.setChmSt c s).chmSt b = d.chmSt b := by
  simp [Dev.chmSt, Dev.setChmSt, sget, kget_kput_other _ _ h]

@[simp] theorem Dev.setChmSt_regs (d : Dev) (c : Nat) (s : ChmSt) : (d.setChmSt c s).regs = d.regs := rfl
@[simp] theorem Dev.setChmSt_ops (d : Dev) (c : Nat) (s : ChmSt) : (d.setChmSt c s).ops = d.ops := rfl
@[simp] theorem Dev.setChmSt_svcs (d : Dev) (c : Nat) (s : ChmSt) : (d.setChmSt c s).svcs = d.svcs := rfl

/-- All that work of a service core can do: it ends and goes on with what it leads to; it fails and keeps what it wrote; or it must
wait, and then the device is as it was but for the start of what it waits for and the work's place among the waiting, or the work is
dropped. -/
theorem Dev.svc_cases (d : Dev) (at_ : SvcAt) (work : Svc) (c : Nat) (m : Who → Eng (Dev → Dev)) :
    let n := (at_.map Prod.fst).getD d.nextSvc
    let ans := (at_.map (fun y => y.2.1)).getD []
    let x := runEng (.svc n) (m (svcWho c n)) d ans [] (at_.map (fun y => y.2.2))
    (∃ k, x.1 = .ok k ∧ d.svc at_ work c m = k x.2.d) ∨
    (∃ st, x.1 = .error (.fail st) ∧ d.svc at_ work c m = x.2.d) ∨
    ∃ b start, x.1 = .error (.block b start) ∧
      (d.svc at_ work c m = d.unparked (.svc n) ∨
       d.svc at_ work c m = start { d with
         svcs := kput d.svcs n { work := work, chamber := c, blk := b, ans := ans },
         nextSvc := max d.nextSvc (n + 1) }) := by
  intro n ans x
  have hx : runEng (.svc n) (m (svcWho c n)) d ans [] (at_.map (fun y => y.2.2)) = (x.1, x.2) := rfl
  match h : x.1 with
  | .ok k =>
    rw [h] at hx
    exact .inl ⟨k, rfl, by simp only [Dev.svc]; rw [hx]⟩
  | .error (.fail st) =>
    rw [h] at hx
    exact .inr (.inl ⟨st, rfl, by simp only [Dev.svc]; rw [hx]⟩)
  | .error (.block b start) =>
    rw [h] at hx
    refine .inr (.inr ⟨b, start, rfl, ?_⟩)
    simp only [Dev.svc]
    rw [hx]
    cases b <;> dsimp only <;> split <;> first | exact .inl rfl | exact .inr rfl

end Sys2Proof.Machine
end

