-- ==== Sys2Proof/Tests/Slice0.lean ====
section
/-!
SUPPORT. Tests: ill-formed commands that `WellFormed` refuses; for every statement with hypotheses a state and operands that meet them, at
boundary values of its clauses; and single commands whose results the spec gives.
-/

namespace Sys2Proof.Tests

open Sys2Proof Sys2Proof.Machine

/-- The reset state with register fields set. -/
def fields (fs : List (Fld × Nat × Nat)) : State :=
  { State.reset with dev := fs.foldl (fun d x => d.wf x.1 x.2.1 x.2.2) blankDev }

/-- The reset state with domains running and register fields set. -/
def running (ks : List Nat) (fs : List (Fld × Nat × Nat)) : State :=
  fields (ks.map (fun k => (.PWR_DOM_STS_STATE, k, 1)) ++ fs)

/-- The device after a command. -/
def after (c : Instr) (s : State) : Dev :=
  match exec c s with
  | .next t => t.dev
  | _ => blankDev

/-- A Mortar message with an opcode, in the physical address form. -/
def message (op : BitVec 8) (args : BitVec 64) (data : Bytes) : Msg :=
  { op := op, tc := 0, af := true, vc := 0, rsv := false, cls := false, chamber := 0, t0s := false, eng := false, status := 0, src := 0,
    dst := 0, tag := 0, xtag := 0, addr := 0, args := args, data := data }

/-- A CXL.mem request with data. -/
def request (data : Bytes) : CxlReq :=
  { hpa := 0, mval := .any, tag := 0, mask := 0, poison := false, data := data, snp := 0 }

/-! ### Ill-formed commands -/

theorem test_wf_opcode : ¬ WellFormed (.rdOwn 0 (message 1 0 [])) := by decide
theorem test_wf_slots : ¬ WellFormed (.data 0 (message 0x24 0 [1])) := by decide
theorem test_wf_reserved_cva_bits : ¬ WellFormed (.rdOwn 0 { message 2 0 [] with af := false, addr := 0x10000000000000 }) := by decide
theorem test_wf_message : WellFormed (.rdOwn 0 { message 2 0 [] with addr := 0x10000000000000 }) := by decide
theorem test_wf_flit : ¬ WellFormed (.flitReceive 0 (zeros 255)) := by
  show ¬ ((zeros 255).length == 256) = true
  rw [zeros, List.length_replicate]
  decide
theorem test_wf_memWr : ¬ WellFormed (.memWr 0 (request (zeros 63))) := by decide
theorem test_wf_memWrPtl : ¬ WellFormed (.memWrPtl 0 (request (zeros 65))) := by decide
theorem test_wf_sensors : ¬ WellFormed (.thermalSample (List.replicate 14 40)) := by decide
theorem test_wf_register_length : ¬ WellFormed (.registerWrite 0 0 2 0) := by decide
theorem test_wf_register_alignment : ¬ WellFormed (.registerWrite 0 4 8 0) := by decide

/-! ### States that meet the statements' hypotheses -/

theorem witness_O1 : ({ State.reset with pending := [.memSpecRd, .bndClose] } : State).pending = .memSpecRd :: [.bndClose] := rfl

theorem witness_O2_off : ({ State.reset with pkg := { resetPkg with mode := .off } } : State).pkg.mode = .off ∧ State.reset.pending = [] := ⟨rfl, rfl⟩
theorem witness_O2_rising : ({ State.reset with pkg := { resetPkg with mode := .up 3 } } : State).pkg.mode ≠ .off ∧
    ({ State.reset with pkg := { resetPkg with mode := .up 3 } } : State).pkg.mode ≠ .on := by decide
theorem witness_O2_on : State.reset.pkg.mode = .on ∧ State.reset.pending = [] := ⟨rfl, rfl⟩

theorem witness_O5 : Fld.XLT_HDM_MAP_SIZE.info.ty = .rwl ∧ (fields [(.BND_STS_ACTIVE, 0, 1)]).dev.active = true := by decide

theorem witness_O6_ro : ownWrite .BND_STS_BUSY = false ∧ Fld.BND_STS_BUSY.info.ty = .ro ∧
    Fld.BND_STS_BUSY.of (2 ^ 64 - 1) = 2 ^ Fld.BND_STS_BUSY.width - 1 := by decide
theorem witness_O6_rw1c : ownWrite .XLT_EXT_STS_OVERRUN = false ∧ Fld.XLT_EXT_STS_OVERRUN.info.ty = .rw1c ∧
    Fld.XLT_EXT_STS_OVERRUN.of (2 ^ 64 - 1) = 2 ^ Fld.XLT_EXT_STS_OVERRUN.width - 1 := by decide
theorem witness_O6_rw : let f := Fld.NET_QP_PMTU
    ownWrite f = false ∧ f.info.ty = .rw ∧ f.of (2 ^ 64 - 1) = 2 ^ f.width - 1 ∧
    blankDev.takes f 4095 = true ∧ blankDev.rf f 4095 < 2 ^ f.width ∧ blankDev.stored f (f.of (2 ^ 64 - 1)) < 2 ^ f.width := by decide

/-- Ring 3 of Chamber 1 enabled and full: its tail may stand at CHEAD + 64 and no further. -/
def ringState : State := running [227] [(.CHM_STS_STATE, 1, 1), (.CHM_RING_STS_STATE, 67, 1), (.CHM_RING_CFG_EN, 67, 1), (.CHM_RING_CFG_SIZE_LOG2, 67, 6),
  (.CHM_RING_CHD_CHEAD, 67, 5)]
theorem witness_O7_awake : ringState.Awake 227 := ⟨rfl, by decide⟩
theorem witness_O7_full : ¬ (2 ^ ringState.dev.rf .CHM_RING_CFG_SIZE_LOG2 67 < subMod 32 69 (ringState.dev.rf .CHM_RING_CHD_CHEAD 67)) ∧
    ringState.dev.rf .CHM_RING_STS_STATE 67 = 1 ∧ ringState.dev.rf .CHM_STS_STATE 1 = 1 ∧ serialAfter 32 (ringState.dev.ring 67).tail 69 = false := by decide
theorem witness_O7_beyond : 2 ^ ringState.dev.rf .CHM_RING_CFG_SIZE_LOG2 67 < subMod 32 70 (ringState.dev.rf .CHM_RING_CHD_CHEAD 67) := by decide
theorem witness_O7_disabled : State.reset.dev.rf .CHM_RING_STS_STATE 67 = 0 ∧ State.reset.dev.rf .CHM_STS_STATE 1 ≠ 1 := by decide
theorem witness_O9_enabled : ringState.dev.rf .CHM_RING_CFG_EN (ringIx 1 3) = 1 := by decide
theorem witness_O9_stopping : (running [227] [(.CHM_RING_STS_STATE, 67, 2)]).Awake 227 ∧
    (running [227] [(.CHM_RING_STS_STATE, 67, 2)]).dev.rf .CHM_RING_CFG_EN (ringIx 1 3) ≠ 1 ∧
    (running [227] [(.CHM_RING_STS_STATE, 67, 2)]).dev.rf .CHM_RING_STS_STATE (ringIx 1 3) = 2 := ⟨⟨rfl, by decide⟩, by decide⟩
theorem witness_O9_disabled : (running [227] []).dev.rf .CHM_RING_CFG_EN (ringIx 1 3) ≠ 1 ∧
    (running [227] []).dev.rf .CHM_RING_STS_STATE (ringIx 1 3) ≠ 2 := by decide

/-- Chambers 2 to 5 in the states 2 to 5 under an active Bond. -/
def chamberState : State := running [228] [(.BND_STS_ACTIVE, 0, 1), (.CHM_STS_STATE, 2, 2), (.CHM_STS_STATE, 3, 3), (.CHM_STS_STATE, 4, 4),
  (.CHM_STS_STATE, 5, 5)]
theorem witness_O10 : chamberState.Awake 228 ∧ chamberState.dev.active = true ∧ chamberState.dev.rf .CHM_STS_STATE 2 = 2 ∧
    chamberState.dev.rf .CHM_STS_STATE 3 = 3 ∧ chamberState.dev.rf .CHM_STS_STATE 5 = 5 ∧ chamberState.dev.rf .CHM_STS_STATE 4 = 4 ∧
    (chamberState.dev.chmSt 4).chb = false := ⟨⟨rfl, by decide⟩, by decide⟩
/-- Chamber 4 is DISABLED, and its Chamber Bond waits for a unit to rise. -/
def risingState : State := { chamberState with dev := chamberState.dev.setChmSt 4 { chamberState.dev.chmSt 4 with chb := true } }
theorem witness_O10_rising : risingState.Awake 228 ∧ risingState.dev.active = true ∧ risingState.dev.rf .CHM_STS_STATE 4 = 4 ∧
    (risingState.dev.chmSt 4).chb = true := ⟨⟨rfl, by decide⟩, by decide⟩

/-- Decoder 7 of port 15 with a map of one extent. -/
def hdmState : State := running [244, 226] [(.XLT_HDM_MAP_VALID, 127, 1), (.XLT_HDM_MAP_SIZE, 127, 1)]
theorem witness_O11 : hdmState.Awake (229 + (15 : Fin 16).val) ∧ hdmState.Awake 226 := ⟨⟨rfl, by decide⟩, ⟨rfl, by decide⟩⟩
theorem witness_O11_fits : hdmState.dev.rf .XLT_HDM_MAP_VALID 127 = 1 ∧ (0x10000000#64).toNat = hdmState.dev.rf .XLT_HDM_MAP_SIZE 127 * 2 ^ 28 := by decide
theorem witness_O11_fits_not : (0x10000001#64).toNat ≠ hdmState.dev.rf .XLT_HDM_MAP_SIZE 127 * 2 ^ 28 := by decide

theorem witness_O12_free : (running [228] []).Awake 228 ∧ (running [228] []).dev.rf .XLT_EXT_STS_BUSY ≠ 1 ∧
    (running [228] []).dev.rf .TIE_CART_CSTS_BUSY ≠ 1 ∧ (running [228] []).dev.pwr.warm = none := ⟨⟨rfl, by decide⟩, by decide⟩
/-- A warm reset has started and waits for its scan. -/
def warmState : State := { running [228] [] with dev := { (running [228] []).dev with pwr.warm := some 3 } }
theorem witness_O12_warm : warmState.Awake 228 ∧ warmState.dev.pwr.warm ≠ none := ⟨⟨rfl, by decide⟩, by decide⟩
/-- A device on which every kind of command is in progress. -/
def busyState : State := running [228] [(.XLT_EXT_STS_BUSY, 0, 1), (.TIE_CART_CSTS_BUSY, 0, 1), (.BND_STS_BUSY, 0, 1)]
theorem witness_O12_busy : busyState.Awake 228 ∧ busyState.dev.pwr.warm = none ∧ busyState.dev.rf .XLT_EXT_STS_BUSY = 1 ∧
    busyState.dev.rf .TIE_CART_CSTS_BUSY = 1 :=
  ⟨⟨rfl, by decide⟩, by decide⟩

/-- One extent of Chamber 3 in a state. -/
def extentDev (n : Nat) (st : ExtState) : Dev := { blankDev with ext := [(n, { target := 0, port := 0, gen := 0, chamber := 3, st := st })] }
/-- The common hypotheses of the extent check. -/
def Plain (d : Dev) (n : Nat) : Prop := n ≠ 0 ∧ d.inPool n = false ∧ (d.isMirror n && !false) = false ∧ d.extHeld n = false
theorem witness_O13_absent : Plain blankDev 1 ∧ (blankDev.extent 1).st = .absent := ⟨by unfold Plain; decide, rfl⟩
theorem witness_O13_free : Plain (extentDev 0x4000 .free) 0x4000 ∧ ((extentDev 0x4000 .free).extent 0x4000).st = .free := ⟨by unfold Plain; decide, rfl⟩
theorem witness_O13_settling : Plain (extentDev 0x20000 .settling) 0x20000 ∧ ((extentDev 0x20000 .settling).extent 0x20000).st = .settling :=
  ⟨by unfold Plain; decide, rfl⟩
theorem witness_O13_open : Plain (extentDev 0xFFF .open_) 0xFFF ∧ ((extentDev 0xFFF .open_).extent 0xFFF).st = .open_ ∧
    ((extentDev 0xFFF .open_).extent 0xFFF).chamber = 3 := ⟨by unfold Plain; decide, rfl, rfl⟩
theorem witness_O13_immutable_t1 : Plain (extentDev 0x7FFF .immutable) 0x7FFF ∧ extKind 0x7FFF = .t1 ∧
    ((extentDev 0x7FFF .immutable).extent 0x7FFF).st = .immutable := ⟨by unfold Plain; decide, rfl, rfl⟩
theorem witness_O13_immutable_remote : Plain (extentDev 0x10000 .immutable) 0x10000 ∧ extKind 0x10000 ≠ .t1 ∧ extKind 0x10000 ≠ .t2 ∧
    ((extentDev 0x10000 .immutable).extent 0x10000).st = .immutable := ⟨by unfold Plain; decide, by decide, by decide, rfl⟩
theorem witness_O13_revoking : Plain (extentDev 0x8000 .revoking) 0x8000 ∧ ((extentDev 0x8000 .revoking).extent 0x8000).st = .revoking :=
  ⟨by unfold Plain; decide, rfl⟩
theorem witness_O13_lost : Plain (extentDev 0x1FFFF .lost) 0x1FFFF ∧ ((extentDev 0x1FFFF .lost).extent 0x1FFFF).st = .lost :=
  ⟨by unfold Plain; decide, rfl⟩

theorem witness_O14 : (0x80000000 : Nat) < 2 ^ (8 * 4) ∧ (0x7FFFFFFF : Nat) < 2 ^ (8 * 4) := by decide
theorem witness_O15 : Memory.wf blankDev.mem = true := by decide

/-- Two messages, the first with data in slots of its own. -/
def twoMessages : List Msg := [message 4 0 (List.replicate 64 0xA5#8), message 8 0 []]
theorem witness_O17 : ∀ m ∈ twoMessages, opAssigned m.opc = true ∧ m.data.length = 32 * dataSlots m := by decide

/-- Port 15 in a mode, its own domain and the Hub's running. -/
def portState (mode : Nat) : State := running [244, 226] [(.HUB_FP_CFG_MODE, 15, mode)]
theorem witness_O18 : (portState 2).Awake (229 + (15 : Fin 16).val) ∧ (portState 2).Awake 226 ∧ (portState 2).dev.rf .HUB_FP_CFG_MODE 15 = 2 :=
  ⟨⟨rfl, by decide⟩, ⟨rfl, by decide⟩, by decide⟩
theorem witness_O18_mortar : (portState 1).Awake (229 + (15 : Fin 16).val) ∧ (portState 1).Awake 226 ∧ (portState 1).dev.rf .HUB_FP_CFG_MODE 15 ≠ 2 :=
  ⟨⟨rfl, by decide⟩, ⟨rfl, by decide⟩, by decide⟩

/-- A device whose port 15 has a link. -/
def linkState (l : Link) : State := { State.reset with dev := { (fields [(.HUB_FP_STS_RETRAINING, 15, 1)]).dev with link := [(15, l)] } }
theorem witness_O19_training : (linkState (newLink true)).pkg.mode = .on ∧ ((linkState (newLink true)).dev.link_ 15).training = true := ⟨rfl, rfl⟩
theorem witness_O19_idle : (State.reset.dev.link_ 0).training = false := rfl
/-- A link that holds one MSG flit. -/
def heldLink : Link := { newLink false with replay := [{ seq := 7, kind := 1, ret := (0, 0, 0), slots := [] }] }
theorem witness_O20_replay : (linkState heldLink).dev.rf .HUB_FP_STS_RETRAINING 15 = 1 ∧
    (((linkState heldLink).dev.link_ 15).replay.take 2048).map SentFlit.seq = [7] := ⟨by decide, rfl⟩
theorem witness_O20_nothing : (linkState (newLink false)).dev.rf .HUB_FP_STS_RETRAINING 15 = 1 ∧
    (((linkState (newLink false)).dev.link_ 15).replay.take 2048).map SentFlit.seq = [] := ⟨by decide, rfl⟩
theorem witness_O20_idle : State.reset.dev.rf .HUB_FP_STS_RETRAINING 15 ≠ 1 := by decide

/-- A cell of a class. -/
def cellOf (tc : Fin 8) : Cell := { dest := .stop 5 7, share := 16, tc := tc, rsp := false, frame := 0, last := true }
/-- Input 39 with n cells of class 5 staged. -/
def hubState (n : Nat) : State :=
  { running [226] [] with dev := { (running [226] []).dev with hub.staged := List.replicate n (39, cellOf 5) } }
theorem witness_O21_one : (hubState 1).Awake 226 ∧ ((hubState 1).dev.hub.staged.filter (fun x => x.1 == 39 && x.2.tc == (cellOf 5).tc)).length < 2 :=
  ⟨⟨rfl, by decide⟩, by decide⟩
theorem witness_O21_two : (hubState 2).Awake 226 ∧ 2 ≤ ((hubState 2).dev.hub.staged.filter (fun x => x.1 == 39 && x.2.tc == (cellOf 5).tc)).length :=
  ⟨⟨rfl, by decide⟩, by decide⟩
theorem witness_O21_class : ((hubState 2).dev.hub.staged.filter (fun x => x.1 == 39 && x.2.tc == (cellOf 7).tc)).length < 2 := by decide

theorem witness_O22_last : (running [228] [(.XLT_FQ_PTR_TAIL, 15, 4)]).Awake 228 ∧
    subMod 32 ((running [228] [(.XLT_FQ_PTR_TAIL, 15, 4)]).dev.rf .XLT_FQ_PTR_TAIL 15) 0xFFFFF004 = 4096 := ⟨⟨rfl, by decide⟩, by decide⟩
theorem witness_O22_beyond : 4096 < subMod 32 ((running [228] [(.XLT_FQ_PTR_TAIL, 15, 4)]).dev.rf .XLT_FQ_PTR_TAIL 15) 0xFFFFF003 := by decide
theorem witness_O23 : (running [228] []).Awake 228 ∧ (0xFFFFFFFFFF#41).toNat < 2 ^ Fld.XLT_CHM_ROOT_ROOT.width := ⟨⟨rfl, by decide⟩, by decide⟩
theorem witness_O24 : keysRise ({ State.reset with dev := { blankDev with xlt.acnt := [(3, 1), (9, 7)] } } : State).dev.xlt.acnt = true := by decide

/-- Mason 143 runs a list of one brick. -/
def masonState_ (raw : Bytes) : State :=
  { running [143] [(.MSN_STS_STATE, 143, 2)] with
    dev := { (running [143] [(.MSN_STS_STATE, 143, 2)]).dev with masons := [(143, { emptyMason with run := some 0, list := [raw] })] } }
/-- A control brick: its opcode and no wait mask. -/
def brick (op : Byte) : Bytes := op :: zeros 63
theorem witness_O26_nop : (masonState_ (brick 0)).Awake 143 ∧ ((masonState_ (brick 0)).dev.atBrick 143 0).isSome = true := ⟨⟨rfl, by decide⟩, by decide⟩
/-- The operation of a run, of Chamber 3. -/
def runOp : Op :=
  { chamber := 3, ring := 0, idx := 0, nslots := 1, opcode := 0x20, tag := 0, sig := false, fence := false, nfz := false, tc := 4, body := [],
    phase := .waiting, admitted := 0, part := 0, lines := 0, nfzLines := 0, poison := false, fallback := false, unstaged := false, applied := false,
    ans := [], reply := none, portal := none, acc := 0, acc2 := 0, acc3 := 0, seen := [] }
/-- The same Mason with the operation of its run. -/
def masonOp (raw : Bytes) : State :=
  { masonState_ raw with dev := { (masonState_ raw).dev with ops := [(0, runOp)] } }
theorem witness_O26_sync : ((masonOp (brick 2)).dev.atBrick 143 2).isSome = true ∧ ((masonOp (brick 2)).dev.mason 143).unitsIdle = true ∧
    (kget (masonOp (brick 2)).dev.ops 0).isSome = true ∧ (masonOp (brick 2)).dev.dirtyWins 3 = [] ∧
    (masonOp (brick 2)).dev.flushFailed 3 = false := by decide
theorem witness_O26_semset : ((masonState_ (brick 7)).dev.atBrick 143 7).isSome = true := by decide

theorem witness_O31 : busyState.Awake 228 ∧ busyState.dev.rf .BND_STS_BUSY = 1 := ⟨⟨rfl, by decide⟩, by decide⟩
/-- A store is open. -/
def storeState : State :=
  { running [228] [] with dev := { (running [228] []).dev with led.store := some { target := 0, index := 0, bytes := [] } } }
theorem witness_O32_closed : (running [228] []).Awake 228 ∧ (running [228] []).dev.rf .BND_STS_BUSY ≠ 1 ∧ (running [228] []).dev.led.store = none ∧
    (3#4).toNat ≤ 6 ∧ (7#4).toNat < 8 := ⟨⟨rfl, by decide⟩, by decide, rfl, by decide, by decide⟩
theorem witness_O32_open : storeState.Awake 228 ∧ storeState.dev.rf .BND_STS_BUSY ≠ 1 ∧ storeState.dev.led.store ≠ none :=
  ⟨⟨rfl, by decide⟩, by decide, by decide⟩
theorem witness_O32_slots : (1#32).toNat ≤ 1 ∧ 1 < (2#32).toNat := by decide

theorem witness_O34_off : State.reset.pkg.mode = .on ∧ State.reset.dev.rf .ERR_TLM_CFG_EN ≠ 1 := ⟨rfl, by decide⟩
theorem witness_O34_on : (fields [(.ERR_TLM_CFG_EN, 0, 1), (.ERR_TLM_PTR_TAIL, 0, 16384)]).dev.rf .ERR_TLM_CFG_EN = 1 ∧
    (fields [(.ERR_TLM_CFG_EN, 0, 1), (.ERR_TLM_PTR_TAIL, 0, 16384)]).dev.rf .ERR_TLM_CFG_STREAM ≠ 1 := by decide

/-- Device 0 of an ensemble with member 63. -/
def peerState : State := running [228] [(.TLY_PEERS_MEMBERS, 0, 0x8000000000000001)]
theorem witness_O36 : peerState.Awake 228 ∧ peerState.dev.member (63#8).toNat = true ∧ (63#8).toNat ≠ peerState.dev.devnum ∧
    peerState.dev.member (62#8).toNat = false := ⟨⟨rfl, by decide⟩, by decide⟩

/-- Domain 208 runs, with the dim policy on; Mason 0 runs a list. -/
def powerState : State :=
  let s := running [0, 208] [(.PWR_POLICY_DIM_IDLE, 0, 1), (.PWR_POLICY_DIM_GROUPS, 0, 0x1F)]
  { s with dev := { s.dev with masons := [(0, { emptyMason with run := some 0 })] } }
theorem witness_O38_runs : powerState.pkg.mode = .on ∧ powerState.dev.rf .PWR_DOM_STS_STATE 208 = 1 ∧ ¬ (208 < 144) ∧ 208 < 209 ∧
    powerState.dev.rf .PWR_POLICY_DIM_IDLE ≠ 0 ∧ bit (powerState.dev.rf .PWR_POLICY_DIM_GROUPS) (dimBit 208) = true := ⟨rfl, by decide⟩
theorem witness_O38_busy : powerState.dev.rf .PWR_DOM_STS_STATE 0 = 1 ∧ (powerState.dev.mason 0).run ≠ none := by decide

/-- The sequencer in a mode, with the PG inputs of the stages so far high. -/
def railState (m : SeqMode) (pg : BitVec 9) : State := { State.reset with pkg := resetPkg.go m, dev := blankDev } |> fun s => { s with pkg := { s.pkg with pg := pg } }
theorem witness_O40_wait : (railState .wait 0).pkg.mode = .wait ∧ (railState .wait 0).pkg.stagePg 0 = false := by decide
theorem witness_O40_stays : (railState (.up 0) 0).pkg.mode = .up 0 ∧ ((railState (.up 0) 0).pkg.setPg 4 true).stagePg 0 = false := by decide
theorem witness_O40_next : ((railState (.up 2) 0x137).pkg.setPg 3 true).stagePg 2 = true ∧
    ((railState (.up 2) 0x137).pkg.setPg 3 true).stagePg 3 = false := by decide
theorem witness_O40_last : ((railState (.up 3) 0x1BF).pkg.setPg 6 true).stagePg 3 = true := by decide
theorem witness_O40_timeout : (railState (.up 3) 0x137).pkg.mode = .up 3 ∧ railStage 6 = 3 ∧ (railState (.up 3) 0x137).pkg.pg.getLsbD 6 = false := by decide
theorem witness_O40_unsupplied : ({ State.reset with pkg := { resetPkg with mode := .off } } : State).pkg.mode = .off := rfl
theorem witness_O41_timeout : (railState (.down 1) 0x1FF).pkg.mode = .down 1 ∧ railStage 1 = 1 := by decide
theorem witness_O41_falls : (railState (.down 3) 0x1BF).pkg.mode = .down 3 ∧ ((railState (.down 3) 0x1BF).pkg.setPg 7 false).stagePg 3 = false := by decide
theorem witness_O41_on : State.reset.pkg.mode = .on ∧ State.reset.pkg.mode ≠ .off := ⟨rfl, by decide⟩
theorem witness_O42 : Instr.ofPackage .wakeN = false ∧ (railState .wait 0).pkg.mode ≠ .on := by decide
theorem witness_O43 : State.reset.pkg.Sound ∧ ∃ t, step State.reset = .next t := ⟨⟨rfl, rfl, rfl, rfl⟩, _, rfl⟩
/-- What the completion statements O44 to O60, and O29, O30, O35, O39, ask of the state. -/
theorem witness_rails_up : State.reset.pkg.mode = .on := rfl
theorem witness_awake_227 : (running [227] []).Awake 227 := ⟨rfl, by decide⟩
theorem witness_awake_228 : (running [228] []).Awake 228 := ⟨rfl, by decide⟩

/-! ### Results that the spec gives -/

/-- 02, Example "placing one T0 line": HS0, pseudo-channel 31, byte address 0x611_7280. -/
theorem test_t0_line : t0Place 96 0 0x1234567A80 = { stack := 0, pc := 31, addr := 0x6117280 } := by decide
/-- 02 R52, the example after the rule: channel DC1 and the byte address in it. -/
theorem test_t1_place : t1Place 0x2000001A40 = (1, 0x200000A40) := by decide
theorem test_t1_channel : blankDev.memUnit (0x042000001A40 / 64) = 1 := by decide
/-- The table of 10, Example "encoding a four-byte block": L[7] = 1, L[8] = 2, L[6] = 3, L[0] = L[9] = 4. -/
def exampleTable : Bytes := [3, 0, 2] ++ zeros 13 ++ [4, 0, 0, 0x13, 0x42] ++ zeros 123
/-- The four bytes of that example. -/
def exampleBytes : Bytes := [0x38, 0x40, 0xB8, 0x00]
/-- 10, the same example: the hand-coded sub-stream, and its expansion. -/
theorem test_expg_encode : expgEncode exampleTable exampleBytes = some [0x00, 0x08, 0x72, 0, 0, 0, 0, 0] := by decide
theorem test_expg_decode : expgDecode exampleTable [0x00, 0x08, 0x72, 0, 0, 0, 0, 0] 4 = some exampleBytes := by decide
/-- 10, the same example: the block that the codecs write, its header and its RAW sub-stream. -/
theorem test_block_header : (blkEncodeAs 1 3 5 (some exampleTable) exampleBytes).take 9 = [0xF5, 0x11, 0x03, 0x05, 0x03, 0x50, 0x00, 0x02, 0x20] := by decide
theorem test_block_auto : (blkEncodeAs 7 3 5 (some exampleTable) exampleBytes).take 8 = [0xF5, 0x01, 0x03, 0x00, 0x03, 0x50, 0x00, 0x00] := by decide
theorem test_block_raw : ((blkEncodeAs 1 3 5 (some exampleTable) exampleBytes).drop 32) = [0x38, 0x40, 0xB8, 0, 0, 0, 0, 0] := by decide
/-- 06 R236, R258: a ring full to the last descriptor takes its DOORBELL, and one beyond it is counted. -/
theorem test_doorbell_full : ((after (.doorbell 1 3 69) ringState).ring 67).tail = 69 := by decide
theorem test_doorbell_beyond : (after (.doorbell 1 3 70) ringState).rf .CHM_RING_STS_DB_ERR 67 = 1 := by decide
/-- 02 R71: an undefined OP completes with BAD_KIND. -/
theorem test_ext_bad_op : (after .extCmdBadOp (running [228] [])).rf .XLT_EXT_RESULT_CODE 0 = 2 := by decide
/-- 06 R245: ENABLE is refused while the Chamber moves. -/
theorem test_enable_refused : (after (.chamberEnable 3) chamberState).rf .CHM_STS_REFUSED 3 = 1 := by decide
/-- 15 R612: a BND_CMD while BUSY. -/
theorem test_bond_busy : (after .bndClose busyState).rf .BND_STS_ERR 0 = 1 := by decide
/-- 17 R663: REINSTATE. -/
theorem test_reinstate : (after (.reinstate 63) peerState).rf .TLY_DEV_STATE 63 = 1 := by decide
/-- 09 R360: SEMSET sets semaphore 0 of its Course to the value that bytes 4 to 7 hold. -/
theorem test_semset : (after (.semset 143) (masonState_ ([7, 0, 0, 0, 0x78, 0x56, 0x34, 0x12] ++ zeros 56))).rf .MSN_SEM_VALUE 960 = 0x12345678 := by decide
/-- 18 R696: DIM_IDLE of a Mason that runs a list changes nothing. -/
theorem test_dim_busy : (after (.dimIdle 0) powerState).rf .PWR_DOM_STS_STATE 0 = 1 := by decide
/-- 05 R205: fetch-add wraps at the operand's size, and the signed minimum compares as two's complement. -/
theorem test_atomic_add : atomicVal 0 4 0xFFFFFFFF 1 0 = 0 := by decide
theorem test_atomic_smin : atomicVal 2 4 0x7FFFFFFF 0x80000000 0 = 0x80000000 := by decide
/-- IEEE 754: 1 + 2 = 3 in FP32, and the largest finite E4M3 value is 448. -/
theorem test_fp32_add : fadd32 0x3F800000 0x40000000 = 0x40400000 := by decide
theorem test_e4m3_max : encodeF fp32 false (decodeF e4m3 0x7E) = 0x43E00000 := by decide
/-- CRC-32C of "123456789" as its definition publishes it. -/
theorem test_crc32c : crc32c [0x31, 0x32, 0x33, 0x34, 0x35, 0x36, 0x37, 0x38, 0x39] = 0xE3069283 := by decide +kernel

end Sys2Proof.Tests
end

section
/-!
PROOFS. The scope chapter (00): what a software write leaves in one register field by the field's type (R9, R10), and what every field
holds after reset (R11).
-/

namespace Sys2Proof.Machine

/-! ### A field's part of a written value -/

theorem Fld.width_pos (f : Fld) : 0 < f.width := by cases f <;> decide

/-- A mask that covers the field reaches at least one of its bits. -/
theorem Fld.of_ne_zero_of_covering {f : Fld} {mask : Nat} (h : f.of mask = 2 ^ f.width - 1) : f.of mask ≠ 0 := by
  have hw : 1 < 2 ^ f.width := Nat.one_lt_two_pow f.width_pos.ne'
  omega

/-- Under a mask that covers the field nothing of the old value stays (R9, R723). -/
theorem merged_covering {f : Fld} {old mask : Nat} (v : Nat) (h : f.of mask = 2 ^ f.width - 1) (hold : old < 2 ^ f.width) :
    merged f old v mask = f.of v := by
  have hv : f.of v < 2 ^ f.width := Nat.mod_lt _ (Nat.two_pow_pos _)
  have hland (x : Nat) (hx : x < 2 ^ f.width) : Nat.land x (2 ^ f.width - 1) = x := Nat.and_two_pow_sub_one_of_lt_two_pow hx
  simp only [merged, h, hland _ hold, hland _ hv]
  omega

/-! ### Which fields take a write -/

theorem Dev.takes_rwl (d : Dev) {f : Fld} (i : Nat) (h : f.info.ty = .rwl) : d.takes f i = !d.active := by
  simp only [Dev.takes, h]

theorem Dev.takes_ro_wo (d : Dev) {f : Fld} (i : Nat) (h : f.info.ty = .ro ∨ f.info.ty = .wo) : d.takes f i = false := by
  rcases h with h | h <;> simp only [Dev.takes, h]

/-! ### The write of one field -/

/-- A write clears in an RW1C field the bits written as 1 (R9). -/
theorem Dev.fieldWrite_rw1c (d : Dev) {f : Fld} (i v : Nat) {mask : Nat} (hown : ownWrite f = false) (hmask : f.of mask ≠ 0)
    (h : f.info.ty = .rw1c) :
    d.fieldWrite f i v mask = d.wf f i (d.rf f i - Nat.land (d.rf f i) (Nat.land (f.of v) (f.of mask))) := by
  simp [Dev.fieldWrite, hown, hmask, h]

/-- A field that takes the write stores the merged value. -/
theorem Dev.fieldWrite_takes (d : Dev) {f : Fld} {i : Nat} (v : Nat) {mask : Nat} (hown : ownWrite f = false) (hmask : f.of mask ≠ 0)
    (h : f.info.ty ≠ .rw1c) (ht : d.takes f i = true) :
    d.fieldWrite f i v mask = d.wf f i (d.stored f (merged f (d.rf f i) v mask)) := by
  simp [Dev.fieldWrite, hown, hmask, ht]

/-- A field that does not take the write now stays. -/
theorem Dev.fieldWrite_not_takes (d : Dev) {f : Fld} {i : Nat} (v mask : Nat) (h : f.info.ty ≠ .rw1c) (ht : d.takes f i = false) :
    d.fieldWrite f i v mask = d := by
  simp [Dev.fieldWrite, ht]

/-- Whatever the field's type, the write has an exact frame: the field it names (R9). -/
theorem Dev.fieldWrite_onlyFields (d : Dev) (f : Fld) (i v mask : Nat) : d.OnlyFields (d.fieldWrite f i v mask) [(f, i)] := by
  unfold Dev.fieldWrite
  split
  · exact .refl d _
  · split
    · exact .write d _ List.mem_cons_self
    · split
      · exact .write d _ List.mem_cons_self
      · exact .refl d _

/-- With the field covered, an RW1C field loses exactly the bits written as 1 (R9). -/
theorem Dev.rf_fieldWrite_rw1c (d : Dev) {f : Fld} (i v : Nat) {mask : Nat} (hown : ownWrite f = false)
    (hmask : f.of mask = 2 ^ f.width - 1) (h : f.info.ty = .rw1c) :
    (d.fieldWrite f i v mask).rf f i = (d.rf f i - Nat.land (d.rf f i) (Nat.land (f.of v) (2 ^ f.width - 1))) % 2 ^ f.width := by
  rw [d.fieldWrite_rw1c i v hown (Fld.of_ne_zero_of_covering hmask) h, Dev.rf_wf_same, hmask]

/-- With the field covered, a field that takes the write holds the value as it is stored (R8, R9). -/
theorem Dev.rf_fieldWrite_takes (d : Dev) {f : Fld} {i v mask : Nat} (hown : ownWrite f = false)
    (hmask : f.of mask = 2 ^ f.width - 1) (h : f.info.ty ≠ .rw1c) (ht : d.takes f i = true) (hold : d.rf f i < 2 ^ f.width)
    (hfit : d.stored f (f.of v) < 2 ^ f.width) : (d.fieldWrite f i v mask).rf f i = d.stored f (f.of v) := by
  rw [d.fieldWrite_takes v hown (Fld.of_ne_zero_of_covering hmask) h ht, Dev.rf_wf_same, merged_covering v hmask hold, Nat.mod_eq_of_lt hfit]

/-- An active Bond holds an RWL field (R10). -/
theorem Dev.fieldWrite_rwl_active (d : Dev) {f : Fld} (i v mask : Nat) (h : f.info.ty = .rwl) (hact : d.active = true) :
    d.fieldWrite f i v mask = d :=
  d.fieldWrite_not_takes v mask (by simp [h]) (by simp [d.takes_rwl i h, hact])

/-! ### The blank device and the meaning of REGISTER_WRITE -/

theorem Dev.rf_of_regs_nil {d : Dev} (h : d.regs = []) (f : Fld) (i : Nat) : d.rf f i = f.reset := by
  simp [Dev.rf, h, sget, kget]

theorem exec_registerWrite (iface : Fin 18) (off : BitVec 32) (len : Nat) (v : BitVec 64) (s : State) :
    exec (.registerWrite iface off len v) s =
      .next (s.onDev (fun d => (d.registerWrite iface.val off.toNat len v.toNat).endGone)) := rfl

/-! ### The statements -/

/-- Settles O6: no write for RO and WO, an RW1C field by its own rule, an RW field by what it takes, and the frame of every case. -/
theorem fieldTypesOfAWrite : Obligations.FieldTypesOfAWrite := by
  intro d f i v mask hown hmask
  refine ⟨fun hty => ?ro_wo, fun hty => ?rw1c, fun hty htakes hold hfit => ?rw, d.fieldWrite_onlyFields f i v mask⟩
  case ro_wo => exact d.fieldWrite_not_takes v mask (by rcases hty with h | h <;> simp [h]) (d.takes_ro_wo i hty)
  case rw1c => exact d.rf_fieldWrite_rw1c i v hown hmask hty
  case rw => exact d.rf_fieldWrite_takes hown hmask (by simp [hty]) htakes hold hfit

/-- Settles O3: the reset state is the blank device, which lists no register field, with the rails up and an empty queue. -/
theorem resetRegistersAndMemory : Obligations.ResetRegistersAndMemory :=
  ⟨fun f i => Dev.rf_of_regs_nil rfl f i, rfl, rfl, rfl, rfl, rfl, rfl, rfl⟩

/-- Settles O5: an RWL field takes no write while a Bond is active, and REGISTER_WRITE always answers a next state. -/
theorem rwlFieldIsHeldByAnActiveBond : Obligations.RwlFieldIsHeldByAnActiveBond :=
  ⟨fun d _ i v mask hty hact => d.fieldWrite_rwl_active i v mask hty hact,
    fun s iface off len v => ⟨_, exec_registerWrite iface off len v s⟩⟩

end Sys2Proof.Machine
end

section
/-!
PROOFS. The pool address chapter (02): when a host's commit of an HDM decoder succeeds (R76), and what the extent check answers in each extent
state (R57).
-/

namespace Sys2Proof.Machine

/-! ### The commit of an HDM decoder -/

/-- With the Hub's and the port's domains awake, an effect of traffic at the port is the effect alone. -/
theorem State.Awake.onPort {s : State} {p : Nat} (h : s.Awake (229 + p)) (h' : s.Awake 226) (f : Dev → Dev) :
    s.onDev (fun d => f (d.usePort p)) = { s with dev := f s.dev } := by
  rw [State.onDev_on _ _ h.1, h.usePort h']

theorem exec_hdmCommit (port : Fin 16) (dec : Fin 8) (base : BitVec 52) (size : BitVec 64) (s : State) :
    exec (.hdmCommit port dec base size) s =
      .next (s.onDev (fun d => (d.usePort port.val).hdmCommit port.val dec.val base.toNat size.toNat)) := rfl

/-- The guard of a commit, in register values (R76). -/
def Dev.HdmFits (d : Dev) (i size : Nat) : Prop := d.rf .XLT_HDM_MAP_VALID i = 1 ∧ size = d.rf .XLT_HDM_MAP_SIZE i * 2 ^ 28

theorem Dev.hdmCommit_of_fits {d : Dev} {port dec size : Nat} (base : Nat) (h : d.HdmFits (port * 8 + dec) size) :
    d.hdmCommit port dec base size =
      { d with hdm := kput d.hdm (port * 8 + dec) base, out := .cxl port .commitOk dec base false [] :: d.out } := by
  obtain ⟨hvalid, hsize⟩ := h
  exact if_pos ⟨(d.rb_eq_true _ _).2 hvalid, hsize⟩

theorem Dev.hdmCommit_of_not_fits {d : Dev} {port dec size : Nat} (base : Nat) (h : ¬ d.HdmFits (port * 8 + dec) size) :
    d.hdmCommit port dec base size =
      { d with hdm := kdel d.hdm (port * 8 + dec), out := .cxl port .notCommitted dec base false [] :: d.out } :=
  if_neg fun ⟨hvalid, hsize⟩ => h ⟨(d.rb_eq_true _ _).1 hvalid, hsize⟩

/-! ### The extent check -/

/-- What the extent check answers the Chamber that owns the extent (R57). In state IMMUTABLE a write of a T0, LENT or REMOTE extent is refused,
one of a T1 or T2 extent while it is the source of a settle (07 R272). R57 has no such row for REMOTE: its refusal is deduced (log 89). -/
def Dev.ownerAcc (d : Dev) (n : Nat) (write : Bool) : Acc :=
  match (d.extent n).st with
  | .absent | .free | .settling => .check
  | .open_ => .ok
  | .immutable =>
    if write = false then .ok
    else if extKind n = .t1 ∨ extKind n = .t2 then (if d.settleSource n then .wprot else .ok)
    else .wprot
  | .revoking => .revoked
  | .lost => .lost

section
variable {d : Dev} {n : Nat}

theorem Dev.ownerAcc_unassigned (write : Bool) (h : (d.extent n).st = .absent ∨ (d.extent n).st = .free ∨ (d.extent n).st = .settling) :
    d.ownerAcc n write = .check := by
  rcases h with h | h | h <;> simp only [Dev.ownerAcc, h]

theorem Dev.ownerAcc_open (write : Bool) (h : (d.extent n).st = .open_) : d.ownerAcc n write = .ok := by
  simp only [Dev.ownerAcc, h]

theorem Dev.ownerAcc_immutable_read (h : (d.extent n).st = .immutable) : d.ownerAcc n false = .ok := by
  simp only [Dev.ownerAcc, h, if_true]

theorem Dev.ownerAcc_immutable_write_refused (h : (d.extent n).st = .immutable) (h1 : extKind n ≠ .t1) (h2 : extKind n ≠ .t2) :
    d.ownerAcc n true = .wprot := by
  simp [Dev.ownerAcc, h, h1, h2]

theorem Dev.ownerAcc_immutable_write_tier (h : (d.extent n).st = .immutable) (hk : extKind n = .t1 ∨ extKind n = .t2) :
    d.ownerAcc n true = if d.settleSource n then .wprot else .ok := by
  simp [Dev.ownerAcc, h, hk]

theorem Dev.ownerAcc_revoking (write : Bool) (h : (d.extent n).st = .revoking) : d.ownerAcc n write = .revoked := by
  simp only [Dev.ownerAcc, h]

theorem Dev.ownerAcc_lost (write : Bool) (h : (d.extent n).st = .lost) : d.ownerAcc n write = .lost := by
  simp only [Dev.ownerAcc, h]

/-- Where no pool, mirror or drain answers first, the check asks for the owner and then answers by the state (R57). -/
theorem Dev.stage4_eq_ownerAcc {standin : Bool} (hn : n ≠ 0) (hpool : d.inPool n = false) (hmirror : (d.isMirror n && !standin) = false)
    (hheld : d.extHeld n = false) (c : Nat) (write : Bool) :
    d.stage4 c n write standin = if (d.extent n).chamber = c then d.ownerAcc n write else .check := by
  simp only [Dev.stage4, hn, hpool, hmirror, hheld, Bool.false_eq_true, if_false]
  cases hst : (d.extent n).st with
  | absent | free | settling => simp [Dev.ownerAcc, hst]
  | open_ | revoking | lost => simp [Dev.ownerAcc, hst]
  | immutable =>
    by_cases hc : (d.extent n).chamber = c
    · cases write <;> cases hk : extKind n <;> simp [Dev.ownerAcc, hst, hc, hk]
    · simp [hc]

end

/-! ### The statements -/

/-- Settles O11: the two branches of the commit, with the port and the Hub awake. -/
theorem hdmCommitSucceedsOnlyOnItsMap : Obligations.HdmCommitSucceedsOnlyOnItsMap := by
  intro s port dec base size hport hhub
  have hexec := (exec_hdmCommit port dec base size s).trans
    (congrArg _ (hport.onPort hhub fun d => d.hdmCommit port.val dec.val base.toNat size.toNat))
  refine ⟨fun hfits => ?committed, fun hfits => ?not_committed⟩
  case committed => rw [hexec, Dev.hdmCommit_of_fits base.toNat hfits]
  case not_committed => rw [hexec, Dev.hdmCommit_of_not_fits base.toNat hfits]

/-- Settles O13: the check asks for the owner, then answers by the state; each clause is one state's answer. The refused write of an IMMUTABLE
REMOTE extent is deduced, not a row of R57 (log 89). -/
theorem extentCheckFollowsTheStates : Obligations.ExtentCheckFollowsTheStates := by
  intro d c n write standin hn hpool hmirror hheld
  have hcheck := Dev.stage4_eq_ownerAcc hn hpool hmirror hheld c write
  have howner (hc : (d.extent n).chamber = c) : d.stage4 c n write standin = d.ownerAcc n write := hcheck.trans (if_pos hc)
  refine ⟨fun hst => ?unassigned, fun hc => hcheck.trans (if_neg hc), fun hc hst => ?opened, fun hc hst hr => ?read,
    fun hc hst hw h1 h2 => ?refused, fun hc hst hw hk => ?tier, fun hc hst => ?revoking, fun hc hst => ?lost⟩
  case unassigned => rw [hcheck, Dev.ownerAcc_unassigned write hst, ite_self]
  case opened => rw [howner hc, Dev.ownerAcc_open write hst]
  case read => rw [howner hc, hr, Dev.ownerAcc_immutable_read hst]
  case refused => rw [howner hc, hw, Dev.ownerAcc_immutable_write_refused hst h1 h2]
  case tier => rw [howner hc, hw, Dev.ownerAcc_immutable_write_tier hst hk]
  case revoking => rw [howner hc, Dev.ownerAcc_revoking write hst]
  case lost => rw [howner hc, Dev.ownerAcc_lost write hst]

end Sys2Proof.Machine
end

section
/-!
PROOFS. The fabric port and Hub chapter (03): what a successful training and the end of a retrain leave in a port (R97, R101), and when a Hub
input stages a cell (R108, R114).
-/

namespace Sys2Proof.Machine

/-! ### Flags and saturating counters -/

@[simp] theorem Dev.rf_wb_same (d : Dev) (f : Fld) (i : Nat) (b : Bool) : (d.wb f i b).rf f i = b2n b := by
  have hb : b2n b < 2 ^ f.width :=
    calc b2n b < 2 := by cases b <;> decide
      _ ≤ 2 ^ f.width := Nat.one_lt_two_pow f.width_pos.ne'
  rw [Dev.wb, Dev.rf_wf_same, Nat.mod_eq_of_lt hb]

theorem satAdd_lt (w x n : Nat) : satAdd w x n < 2 ^ w := by
  have hw : 0 < 2 ^ w := Nat.two_pow_pos w
  unfold satAdd
  omega

@[simp] theorem Dev.rf_bump_same (d : Dev) (f : Fld) (i n : Nat) : (d.bump f i n).rf f i = satAdd f.width (d.rf f i) n := by
  rw [Dev.bump, Dev.rf_wf_same, Nat.mod_eq_of_lt (satAdd_lt _ _ _)]

/-! ### Training -/

theorem exec_portTrainingDone {s : State} (hon : s.pkg.mode = .on) (port : Fin 16) (ok width4 : Bool) (rate : BitVec 2) :
    exec (.portTrainingDone port ok width4 rate) s = .next { s with dev := s.dev.trained port.val ok width4 rate.toNat } :=
  congrArg _ (State.onDev_on _ s hon)

theorem exec_trainingTimeout {s : State} (hon : s.pkg.mode = .on) (port : Fin 16) :
    exec (.trainingTimeout port) s = .next { s with dev := s.dev.trainTimeout port.val } :=
  congrArg _ (State.onDev_on _ s hon)

/-- The link that training brings up: on a Mortar port it grants the initial credit (R99). -/
def Dev.trainedLink (d : Dev) (p : Nat) : Link :=
  if d.isMortar p then { newLink false with granted := d.initialCredit p } else newLink false

/-- The register writes of a link that comes up (R101, R124). -/
def Dev.reportUp (d : Dev) (p width rate : Nat) : Dev :=
  ((d.wb .HUB_FP_STS_LINK_UP p true).wf .HUB_FP_STS_WIDTH p width).wf .HUB_FP_STS_RATE p rate

theorem Dev.trainedLink_training (d : Dev) (p : Nat) : (d.trainedLink p).training = false := by
  unfold Dev.trainedLink
  split <;> rfl

theorem Dev.trained_success {d : Dev} {p : Nat} (width4 : Bool) (rate : Nat) (h : (d.link_ p).training = true) :
    d.trained p true width4 rate =
      (d.setLink p (d.trainedLink p)).reportUp p (if width4 then 1 else 2) (if d.isMortar p then 3 else rate) :=
  if_pos h

theorem Dev.trained_not_training {d : Dev} {p : Nat} (ok width4 : Bool) (rate : Nat) (h : (d.link_ p).training = false) :
    d.trained p ok width4 rate = d :=
  if_neg (Bool.eq_false_iff.1 h)

theorem Dev.trainTimeout_not_training {d : Dev} {p : Nat} (h : (d.link_ p).training = false) : d.trainTimeout p = d :=
  if_neg (Bool.eq_false_iff.1 h)

section
variable (d : Dev) (p width rate : Nat)

theorem Dev.reportUp_link (q : Nat) : (d.reportUp p width rate).link_ q = d.link_ q := rfl

theorem Dev.rf_reportUp_linkUp : (d.reportUp p width rate).rf .HUB_FP_STS_LINK_UP p = 1 := by
  rw [Dev.reportUp, Dev.rf_wf_field _ _ _ _ (by decide), Dev.rf_wf_field _ _ _ _ (by decide), Dev.rf_wb_same, b2n, if_pos rfl]

theorem Dev.rf_reportUp_width : (d.reportUp p width rate).rf .HUB_FP_STS_WIDTH p = width % 4 := by
  rw [Dev.reportUp, Dev.rf_wf_field _ _ _ _ (by decide), Dev.rf_wf_same]
  rfl

theorem Dev.rf_reportUp_rate : (d.reportUp p width rate).rf .HUB_FP_STS_RATE p = rate % 4 := by
  rw [Dev.reportUp, Dev.rf_wf_same]
  rfl

theorem Dev.reportUp_onlyFields :
    d.OnlyFields (d.reportUp p width rate) [(.HUB_FP_STS_LINK_UP, p), (.HUB_FP_STS_WIDTH, p), (.HUB_FP_STS_RATE, p)] :=
  ((Dev.OnlyFields.write d _ (by simp)).snoc _ (by simp)).snoc _ (by simp)

end

/-! ### The end of a retrain -/

theorem exec_retrainDone {s : State} (hon : s.pkg.mode = .on) (port : Fin 16) :
    exec (.retrainDone port) s = .next { s with dev := s.dev.retrainDone port.val } :=
  congrArg _ (State.onDev_on _ s hon)

/-- What is sent is no register field: a frame of registers holds with anything sent. -/
theorem Dev.OnlyFields.sent {a b : Dev} {fs : List (Fld × Nat)} (h : a.OnlyFields b fs) (out : List Out) :
    Dev.OnlyFields { a with out := out } { b with out := out } fs := by
  obtain ⟨hrest, hfields⟩ := h
  refine ⟨?_, hfields⟩
  rw [hrest]

/-- The flits go out in their order, each with the port's ACK; the newest output stands first (R97). -/
theorem Dev.resend_eq (d : Dev) (p : Nat) (fs : List SentFlit) :
    d.resend p fs = { d with out := (fs.map (fun f => Out.flit p (f.raw (d.link_ p).ack))).reverse ++ d.out } := by
  induction fs generalizing d with
  | nil => rfl
  | cons f fs ih =>
    have hstep : d.resend p (f :: fs) = Dev.resend { d with out := .flit p (f.raw (d.link_ p).ack) :: d.out } p fs := rfl
    have hlink : Dev.link_ { d with out := .flit p (f.raw (d.link_ p).ack) :: d.out } p = d.link_ p := rfl
    rw [hstep, ih, hlink]
    simp

/-- The register writes at the end of a retrain that replays `n` flits (R101, R125). -/
def Dev.reportReplay (d : Dev) (p n : Nat) : Dev := (d.wb .HUB_FP_STS_RETRAINING p false).bump .HUB_FP_ERR_REPLAY p n

theorem Dev.retrainDone_idle {d : Dev} {p : Nat} (h : d.rf .HUB_FP_STS_RETRAINING p ≠ 1) : d.retrainDone p = d :=
  if_neg (Bool.eq_false_iff.1 ((d.rb_eq_false _ _).2 h))

theorem Dev.retrainDone_retraining {d : Dev} {p : Nat} (h : d.rf .HUB_FP_STS_RETRAINING p = 1) :
    d.retrainDone p = (d.reportReplay p ((d.link_ p).replay.take 2048).length).resend p ((d.link_ p).replay.take 2048) :=
  if_pos ((d.rb_eq_true _ _).2 h)

section
variable (d : Dev) (p n : Nat)

theorem Dev.reportReplay_link (q : Nat) : (d.reportReplay p n).link_ q = d.link_ q := rfl

theorem Dev.reportReplay_out : (d.reportReplay p n).out = d.out := rfl

theorem Dev.rf_reportReplay_retraining : (d.reportReplay p n).rf .HUB_FP_STS_RETRAINING p = 0 := by
  rw [Dev.reportReplay, Dev.bump, Dev.rf_wf_field _ _ _ _ (by decide), Dev.rf_wb_same]
  rfl

theorem Dev.rf_reportReplay_replay :
    (d.reportReplay p n).rf .HUB_FP_ERR_REPLAY p = satAdd Fld.HUB_FP_ERR_REPLAY.width (d.rf .HUB_FP_ERR_REPLAY p) n := by
  rw [Dev.reportReplay, Dev.rf_bump_same, Dev.wb, Dev.rf_wf_field _ _ _ _ (by decide)]

theorem Dev.reportReplay_onlyFields : d.OnlyFields (d.reportReplay p n) [(.HUB_FP_STS_RETRAINING, p), (.HUB_FP_ERR_REPLAY, p)] :=
  (Dev.OnlyFields.write d _ (by simp)).snoc _ (by simp)

end

/-! ### Staging -/

theorem exec_hubCellArrival {s : State} (h : s.Awake 226) (input : Fin 40) (cell : Cell) :
    exec (.hubCellArrival input cell) s = .next { s with dev := s.dev.cellArrival input.val cell } :=
  congrArg _ (h.onDev (fun d => d.cellArrival input.val cell))

/-- How many cells of the class of `c` wait at an input (R108). -/
def Dev.stagedLike (d : Dev) (input : Nat) (c : Cell) : Nat :=
  (d.hub.staged.filter (fun x => x.1 == input && x.2.tc == c.tc)).length

theorem Dev.cellArrival_of_slot {d : Dev} {input : Nat} {c : Cell} (h : d.stagedLike input c < 2) :
    d.cellArrival input c = { d with hub.staged := d.hub.staged ++ [(input, c)] } :=
  if_pos h

theorem Dev.cellArrival_of_full {d : Dev} {input : Nat} {c : Cell} (h : 2 ≤ d.stagedLike input c) : d.cellArrival input c = d :=
  if_neg (Nat.not_lt.2 h)

/-! ### The statements -/

/-- Settles O19: training that succeeds puts a new link in place and then writes three registers; a port that is not training stays as it was. -/
theorem trainingBringsTheLinkUp : Obligations.TrainingBringsTheLinkUp := by
  intro s p width4 rate hon
  refine ⟨fun htrains => ?trains, fun hidle => ⟨fun ok => ?done, ?timeout⟩⟩
  case trains =>
    have hwidth : (if width4 then 1 else 2) % 4 = if width4 then 1 else 2 := by cases width4 <;> rfl
    have hrate : (if s.dev.isMortar p then 3 else rate.toNat) % 4 = if s.dev.rf .HUB_FP_CFG_MODE p = 1 then 3 else rate.toNat := by
      have hlt : rate.toNat < 4 := rate.isLt
      simp only [Dev.isMortar, beq_iff_eq]
      split <;> omega
    refine ⟨_, (exec_portTrainingDone hon p true width4 rate).trans (by rw [Dev.trained_success width4 rate.toNat htrains]), ?training,
      Dev.rf_reportUp_linkUp .., (Dev.rf_reportUp_width ..).trans hwidth, (Dev.rf_reportUp_rate ..).trans hrate, fun q hq => ?others,
      Dev.reportUp_onlyFields (s.dev.setLink p (s.dev.trainedLink p)) ..⟩
    case training => rw [Dev.reportUp_link, Dev.link_setLink_same, Dev.trainedLink_training]
    case others => rw [Dev.reportUp_link, Dev.link_setLink_other _ _ hq]
  case done => rw [exec_portTrainingDone hon, Dev.trained_not_training _ _ _ hidle]
  case timeout => rw [exec_trainingTimeout hon, Dev.trainTimeout_not_training hidle]

/-- Settles O20: the end of a retrain is two register writes and then the flits of the replay buffer in their order. -/
theorem retrainReplaysFromTheLastAck : Obligations.RetrainReplaysFromTheLastAck := by
  intro s p hon fs
  refine ⟨fun hidle => ?idle, fun hretrains => ?retrains⟩
  case idle => rw [exec_retrainDone hon, Dev.retrainDone_idle hidle]
  case retrains =>
    have hdone : exec (.retrainDone p) s = .next { s with dev := (s.dev.reportReplay p fs.length).resend p fs } := by
      rw [exec_retrainDone hon, Dev.retrainDone_retraining hretrains]
    rw [Dev.resend_eq, Dev.reportReplay_link, Dev.reportReplay_out] at hdone
    exact ⟨_, hdone, Dev.rf_reportReplay_retraining .., rfl, Dev.rf_reportReplay_replay ..,
      (s.dev.reportReplay_onlyFields p fs.length).sent _⟩

/-- Settles O21: the input has a staging slot of the class, or the cell stays with its sender. -/
theorem cellsAreStagedTwoToAClass : Obligations.CellsAreStagedTwoToAClass := by
  intro s input cell hhub n
  refine ⟨fun hslot => ?slot, fun hfull => ?full⟩
  case slot => rw [exec_hubCellArrival hhub, Dev.cellArrival_of_slot hslot]
  case full => rw [exec_hubCellArrival hhub, Dev.cellArrival_of_full hfull]

end Sys2Proof.Machine
end

section
/-!
PROOFS. The Mortar coherence chapter (04): a header slot spells every field of its message (R143), and slots that arrive in order assemble to
the messages that were cut into them (R143, R145, R146).
-/

namespace Sys2Proof.Machine

/-! ### Little-endian fields of a byte string -/

@[simp] theorem leBytes_length (n x : Nat) : (leBytes n x).length = n := by
  induction n generalizing x with
  | zero => rfl
  | succ n ih => simp [leBytes, ih]

/-- The `n` low bytes of a number that fits them spell it (R5). -/
theorem ofLE_leBytes {n x : Nat} (h : x < 2 ^ (8 * n)) : ofLE (leBytes n x) = x := by
  induction n generalizing x with
  | zero => exact (Nat.lt_one_iff.1 h).symm
  | succ n ih =>
    have hrest : x / 256 < 2 ^ (8 * n) := Nat.div_lt_of_lt_mul (by rwa [Nat.mul_succ, Nat.add_comm, Nat.pow_add] at h)
    simp only [leBytes, ofLE, ih hrest, BitVec.toNat_ofNat]
    omega

/-- A field at the front of a byte string reads the number laid there. -/
theorem field_leBytes_append {n x : Nat} (h : x < 2 ^ (8 * n)) (rest : Bytes) : field (leBytes n x ++ rest) 0 n = x := by
  rw [field, List.drop_zero, List.take_left' (leBytes_length n x), ofLE_leBytes h]

/-- A word that fits its bytes is read back from the front of a byte string. -/
theorem field_toNat_append {w n : Nat} (x : BitVec w) (h : w ≤ 8 * n) (rest : Bytes) : field (leBytes n x.toNat ++ rest) 0 n = x.toNat :=
  field_leBytes_append (x.isLt.trans_le (Nat.pow_le_pow_right (by decide) h)) rest

/-- A word that fits its bytes is read back from them alone. -/
theorem field_toNat {w n : Nat} (x : BitVec w) (h : w ≤ 8 * n) : field (leBytes n x.toNat) 0 n = x.toNat := by
  simpa using field_toNat_append x h []

/-- A field further on is read behind the number in front of it. -/
theorem field_leBytes_append_skip {n off : Nat} (x k : Nat) (rest : Bytes) (h : n ≤ off) :
    field (leBytes n x ++ rest) off k = field rest (off - n) k := by
  rw [field, field, List.drop_append, List.drop_eq_nil_of_le ((leBytes_length n x).trans_le h), leBytes_length, List.nil_append]

/-! ### The header slot -/

theorem b2n_le_one (b : Bool) : b2n b ≤ 1 := by cases b <;> decide

/-- A flag that is digit `i` of a number is its bit `i`. -/
theorem bit_of_digit {x i : Nat} {b : Bool} (h : x / 2 ^ i % 2 = b2n b) : bit x i = b := by
  rw [bit, h]
  cases b <;> rfl

/-- A word that is the low digits of a number is that number cut to its width. -/
theorem ofNat_of_mod {w x : Nat} {v : BitVec w} (h : x % 2 ^ w = v.toNat) : BitVec.ofNat w x = v :=
  BitVec.eq_of_toNat_eq ((BitVec.toNat_ofNat x w).trans h)

/-- Byte 1 of a header: TC, AF, VC, RSV and the request class (R143). -/
def classByte (m : Msg) : Nat := m.tc.toNat + 8 * b2n m.af + 16 * m.vc.toNat + 64 * b2n m.rsv + 128 * b2n m.cls

/-- Byte 2 of a header: the Chamber, T0S and ENG (R143). -/
def chamberByte (m : Msg) : Nat := m.chamber.toNat + 16 * b2n m.t0s + 32 * b2n m.eng

section
variable (m : Msg)

theorem classByte_lt : classByte m < 256 := by
  have := m.tc.isLt; have := m.vc.isLt; have := b2n_le_one m.af; have := b2n_le_one m.rsv; have := b2n_le_one m.cls
  unfold classByte
  omega

theorem chamberByte_lt : chamberByte m < 256 := by
  have := m.chamber.isLt; have := b2n_le_one m.t0s; have := b2n_le_one m.eng
  unfold chamberByte
  omega

/-- The five parts of byte 1 do not overlap. -/
theorem classByte_parts : BitVec.ofNat 3 (classByte m) = m.tc ∧ bit (classByte m) 3 = m.af ∧ BitVec.ofNat 2 (classByte m / 16) = m.vc ∧
    bit (classByte m) 6 = m.rsv ∧ bit (classByte m) 7 = m.cls := by
  have htc := m.tc.isLt; have hvc := m.vc.isLt
  have haf := b2n_le_one m.af; have hrsv := b2n_le_one m.rsv; have hcls := b2n_le_one m.cls
  refine ⟨ofNat_of_mod ?tc, bit_of_digit ?af, ofNat_of_mod ?vc, bit_of_digit ?rsv, bit_of_digit ?cls⟩ <;> unfold classByte <;> omega

/-- The three parts of byte 2 do not overlap. -/
theorem chamberByte_parts : BitVec.ofNat 4 (chamberByte m) = m.chamber ∧ bit (chamberByte m) 4 = m.t0s ∧ bit (chamberByte m) 5 = m.eng := by
  have hchamber := m.chamber.isLt; have ht0s := b2n_le_one m.t0s; have heng := b2n_le_one m.eng
  refine ⟨ofNat_of_mod ?chamber, bit_of_digit ?t0s, bit_of_digit ?eng⟩ <;> unfold chamberByte <;> omega

/-- The header laid out from its first byte on (R143). -/
theorem msgHeader_eq : msgHeader m =
    leBytes 1 m.op.toNat ++ (leBytes 1 (classByte m) ++ (leBytes 1 (chamberByte m) ++ (leBytes 1 m.status.toNat ++ (leBytes 2 m.src.toNat ++
      (leBytes 2 m.dst.toNat ++ (leBytes 4 m.tag.toNat ++ (leBytes 4 m.xtag.toNat ++ (leBytes 8 m.addr.toNat ++
        leBytes 8 m.args.toNat)))))))) := by
  simp only [msgHeader, classByte, chamberByte, List.append_assoc]

theorem msgHeader_length : (msgHeader m).length = 32 := by simp [msgHeader_eq]

/-- Each field of the header, at its place (R143): the numbers laid in front of it are skipped, and it fits its bytes. -/
theorem field_msgHeader :
    field (msgHeader m) 0 1 = m.op.toNat ∧ field (msgHeader m) 1 1 = classByte m ∧ field (msgHeader m) 2 1 = chamberByte m ∧
    field (msgHeader m) 3 1 = m.status.toNat ∧ field (msgHeader m) 4 2 = m.src.toNat ∧ field (msgHeader m) 6 2 = m.dst.toNat ∧
    field (msgHeader m) 8 4 = m.tag.toNat ∧ field (msgHeader m) 12 4 = m.xtag.toNat ∧ field (msgHeader m) 16 8 = m.addr.toNat ∧
    field (msgHeader m) 24 8 = m.args.toNat := by
  simp [msgHeader_eq, field_leBytes_append_skip, field_toNat_append, field_toNat, field_leBytes_append, classByte_lt m, chamberByte_lt m]

/-- Parsing the header slot gives the message, its data still to come (R143). -/
theorem parseHeader_msgHeader : parseHeader (msgHeader m) = { m with data := [] } := by
  obtain ⟨htc, haf, hvc, hrsv, hcls⟩ := classByte_parts m
  obtain ⟨hchamber, ht0s, heng⟩ := chamberByte_parts m
  obtain ⟨hop, hb1, hb2, hstatus, hsrc, hdst, htag, hxtag, haddr, hargs⟩ := field_msgHeader m
  simp only [parseHeader, hop, hb1, hb2, hstatus, hsrc, hdst, htag, hxtag, haddr, hargs, htc, haf, hvc, hrsv, hcls, hchamber, ht0s, heng,
    BitVec.ofNat_toNat, BitVec.setWidth_eq]

end

/-! ### The data slots -/

theorem padTo_of_length {n : Nat} {l : Bytes} (h : l.length = n) : padTo n l = l := List.take_left' h

/-- The data slots of a message, each 32 bytes (R143). -/
def slotsOfData (k : Nat) (data : Bytes) : List Bytes := (List.range k).map (fun i => padTo 32 ((data.drop (32 * i)).take 32))

theorem msgSlots_eq (m : Msg) : msgSlots m = msgHeader m :: slotsOfData (dataSlots m) m.data := rfl

@[simp] theorem slotsOfData_length (k : Nat) (data : Bytes) : (slotsOfData k data).length = k := by simp [slotsOfData]

theorem slotsOfData_succ (k : Nat) (data : Bytes) :
    slotsOfData (k + 1) data = padTo 32 (data.take 32) :: slotsOfData k (data.drop 32) := by
  simp [slotsOfData, List.range_succ_eq_map, Function.comp_def, Nat.mul_add, Nat.add_comm]

/-- Data that fill their slots are the slots put one after the other. -/
theorem slotsOfData_flatten {k : Nat} {data : Bytes} (h : data.length = 32 * k) : (slotsOfData k data).flatten = data := by
  induction k generalizing data with
  | zero => exact (List.eq_nil_of_length_eq_zero h).symm
  | succ k ih =>
    have hfirst : (data.take 32).length = 32 := by rw [List.length_take]; omega
    have hrest : (data.drop 32).length = 32 * k := by rw [List.length_drop]; omega
    rw [slotsOfData_succ, List.flatten_cons, padTo_of_length hfirst, ih hrest, List.take_append_drop]

/-! ### Assembly -/

/-- A header with an assigned opcode is not an empty slot (R146, log 21). -/
theorem msgHeader_not_zero {m : Msg} (h : opAssigned m.opc = true) : (msgHeader m).all (fun b => b == 0#8) = false := by
  have hop : m.op ≠ 0#8 := fun h0 => by simp [Msg.opc, h0, opAssigned] at h
  simp [msgHeader, leBytes, hop]

/-- One slot of a message whose header has come, or is this slot: with the slots `got` behind the header, the message is complete if they
are all its data slots, and waits for more if not (R143). -/
theorem assemble_cons {m : Msg} (h : opAssigned m.opc = true) {part got : List Bytes} {s : Bytes} (hpart : part ++ [s] = msgHeader m :: got)
    (rest : List Bytes) (done : List Msg) :
    assemble (s :: rest) part done =
      if dataSlots m < got.length + 1 then assemble rest [] (done ++ [{ m with data := got.flatten }])
      else assemble rest (msgHeader m :: got) done := by
  have hnotEmpty : (part.isEmpty && s.all (fun b => b == 0#8)) = false := by
    cases part with
    | nil =>
      obtain ⟨rfl, -⟩ := List.cons.inj hpart
      simp [msgHeader_not_zero h]
    | cons => rfl
  have hassigned : opAssigned ({ m with data := [] } : Msg).opc = true := h
  have hslots : dataSlots { m with data := [] } = dataSlots m := rfl
  simp [assemble, hnotEmpty, hpart, parseHeader_msgHeader, hassigned, hslots]

/-- The slots of a message that are still due complete it, and assembly goes on behind them (R143, R145). -/
theorem assemble_slots_due {m : Msg} (h : opAssigned m.opc = true) (due rest : List Bytes) (done : List Msg) {part got : List Bytes}
    {s : Bytes} (hpart : part ++ [s] = msgHeader m :: got) (hdue : got.length + due.length = dataSlots m) :
    assemble (s :: due ++ rest) part done = assemble rest [] (done ++ [{ m with data := (got ++ due).flatten }]) := by
  induction due generalizing part got s with
  | nil =>
    have hall : dataSlots m < got.length + 1 := by simp [← hdue]
    simp [assemble_cons h hpart, hall]
  | cons next due ih =>
    have hmore : ¬ dataSlots m < got.length + 1 := by simp [← hdue]
    have hgot : (got ++ [next]).length + due.length = dataSlots m := by simpa [Nat.add_assoc, Nat.add_comm 1] using hdue
    have hnext := ih (part := msgHeader m :: got) (got := got ++ [next]) (s := next) rfl hgot
    rw [List.cons_append, assemble_cons h hpart, if_neg hmore, hnext, List.append_assoc, List.singleton_append]

/-- All slots of a message whose data fill them assemble to the message (R143, R145). -/
theorem assemble_msgSlots {m : Msg} (h : opAssigned m.opc = true) (hdata : m.data.length = 32 * dataSlots m) (rest : List Bytes)
    (done : List Msg) : assemble (msgSlots m ++ rest) [] done = assemble rest [] (done ++ [m]) := by
  rw [msgSlots_eq, assemble_slots_due h _ rest done (got := []) rfl (by simp), List.nil_append, slotsOfData_flatten hdata]

/-- Messages assembled behind others, by induction on the messages. -/
theorem assemble_flatMap_msgSlots {ms : List Msg} (h : ∀ m ∈ ms, opAssigned m.opc = true ∧ m.data.length = 32 * dataSlots m)
    (done : List Msg) : assemble (ms.flatMap msgSlots) [] done = some (done ++ ms, []) := by
  induction ms generalizing done with
  | nil => simp [assemble]
  | cons m ms ih =>
    obtain ⟨⟨hop, hdata⟩, hrest⟩ := List.forall_mem_cons.1 h
    rw [List.flatMap_cons, assemble_msgSlots hop hdata, ih hrest, List.append_assoc, List.singleton_append]

/-! ### The statements -/

/-- Settles O16: ten byte fields make 32 bytes, each is read at its place, and the two packed bytes fall apart into their bits. -/
theorem headerSlotKeepsEveryField : Obligations.HeaderSlotKeepsEveryField :=
  fun m => ⟨msgHeader_length m, parseHeader_msgHeader m⟩

/-- Settles O17: each message consumes exactly its own slots, whatever was assembled before it and whatever follows. -/
theorem slotsAssembleToTheMessages : Obligations.SlotsAssembleToTheMessages :=
  fun _ hms => assemble_flatMap_msgSlots hms []

end Sys2Proof.Machine
end

section
/-!
PROOFS. The memory model chapter (05): the values that the atomics store, one equation per operation of the table (R205).
-/

namespace Sys2Proof.Machine

/-! ### The value that each operation stores -/

/-- The table of R205 for ADD. -/
theorem atomicVal_add (n m v s : Nat) : atomicVal 0 n m v s = (m + v) % 2 ^ (8 * n) := rfl

/-- The table of R205 for SMIN: the stored value is one of the two, and as a signed number it is the lesser. -/
theorem toInt_atomicVal_smin (n m v s : Nat) :
    toInt (8 * n) (atomicVal 2 n m v s) = min (toInt (8 * n) m) (toInt (8 * n) v) := by
  have hval : atomicVal 2 n m v s = if toInt (8 * n) v < toInt (8 * n) m then v else m := rfl
  rw [hval, apply_ite (toInt (8 * n)), ← min_def_lt, min_comm]

/-- The table of R205 for SMAX: the stored value is one of the two, and as a signed number it is the greater. -/
theorem toInt_atomicVal_smax (n m v s : Nat) :
    toInt (8 * n) (atomicVal 3 n m v s) = max (toInt (8 * n) m) (toInt (8 * n) v) := by
  have hval : atomicVal 3 n m v s = if toInt (8 * n) m < toInt (8 * n) v then v else m := rfl
  rw [hval, apply_ite (toInt (8 * n)), ← max_def_lt]

/-- The table of R205 for UMIN. -/
theorem atomicVal_umin (n m v s : Nat) : atomicVal 4 n m v s = min m v := by
  have hval : atomicVal 4 n m v s = if v < m then v else m := rfl
  rw [hval, ← min_def_lt, min_comm]

/-- The table of R205 for UMAX. -/
theorem atomicVal_umax (n m v s : Nat) : atomicVal 5 n m v s = max m v := by
  have hval : atomicVal 5 n m v s = if m < v then v else m := rfl
  rw [hval, ← max_def_lt]

/-- The table of R205 for CAS. -/
theorem atomicVal_cas (n m v s : Nat) : atomicVal 6 n m v s = if m = v then s else m := rfl

/-! ### The statement -/

/-- Settles O14: a comparison that keeps one of two values is their minimum or maximum, signed or unsigned by the numbers compared; the
bounds on the operands are not needed. -/
theorem atomicsFollowTheTable : Obligations.AtomicsFollowTheTable :=
  fun n m v s _ _ =>
    ⟨atomicVal_add n m v s, toInt_atomicVal_smin n m v s, toInt_atomicVal_smax n m v s, atomicVal_umin n m v s, atomicVal_umax n m v s,
      atomicVal_cas n m v s⟩

end Sys2Proof.Machine
end

section
/-!
PROOFS. The Chamber and work ring chapter (06): which doorbells are ignored and what each doorbell leaves (R236, R258), and what CHM_CTL does
to a Chamber that moves and to a DISABLED one (R243, R245).
-/

namespace Sys2Proof.Machine

/-! ### The doorbell -/

theorem exec_doorbell {s : State} (h : s.Awake 227) (c : Fin 16) (r : Fin 64) (tail : BitVec 32) :
    exec (.doorbell c r tail) s = .next { s with dev := s.dev.doorbell c.val r.val tail.toNat } :=
  congrArg _ (h.onDev (fun d => d.doorbell c.val r.val tail.toNat))

/-- The doorbells that ring `r` of Chamber `c` ignores (R236): the ring is STOPPED or STOPPING, the Chamber is not ENABLED, TAIL is below the
last by serial arithmetic, or TAIL is more than the ring's size ahead of the completion head. -/
def Dev.DoorbellIgnored (d : Dev) (c r tail : Nat) : Prop :=
  d.rf .CHM_RING_STS_STATE (ringIx c r) = 0 ∨ d.rf .CHM_RING_STS_STATE (ringIx c r) = 2 ∨ d.rf .CHM_STS_STATE c ≠ 1 ∨
    serialAfter 32 (d.ring (ringIx c r)).tail tail = true ∨
    2 ^ d.rf .CHM_RING_CFG_SIZE_LOG2 (ringIx c r) < subMod 32 tail (d.rf .CHM_RING_CHD_CHEAD (ringIx c r))

theorem Dev.doorbell_of_ignored {d : Dev} {c r tail : Nat} (h : d.DoorbellIgnored c r tail) :
    d.doorbell c r tail = d.bump .CHM_RING_STS_DB_ERR (ringIx c r) :=
  if_pos h

theorem Dev.doorbell_of_taken {d : Dev} {c r tail : Nat} (h : ¬ d.DoorbellIgnored c r tail) :
    d.doorbell c r tail = d.setRing (ringIx c r) { d.ring (ringIx c r) with tail := u32 tail } :=
  if_neg h

theorem u32_toNat (x : BitVec 32) : u32 x.toNat = x.toNat := Nat.mod_eq_of_lt x.isLt

/-! ### Chamber control -/

section
variable {s : State} (h : s.Awake 228) (c : Fin 16)
include h

theorem exec_chamberEnable : exec (.chamberEnable c) s = .next { s with dev := s.dev.chamberEnable c.val } :=
  congrArg _ (h.onDev (fun d => d.chamberEnable c.val))

theorem exec_chamberDisable : exec (.chamberDisable c) s = .next { s with dev := s.dev.chamberDisable c.val } :=
  congrArg _ (h.onDev (fun d => d.chamberDisable c.val))

theorem exec_chamberReset : exec (.chamberReset c) s = .next { s with dev := s.dev.chamberReset c.val } :=
  congrArg _ (h.onDev (fun d => d.chamberReset c.val))

end

section
variable {d : Dev} {c : Nat}

/-- CHM_CTL acts on an ENABLED or DISABLED Chamber for which no Chamber Bond waits (R245, R251, log 163). -/
theorem Dev.ctlOk_iff :
    d.ctlOk c = true ↔ d.chmDefined c = true ∧ (d.rf .CHM_STS_STATE c = 1 ∨ d.rf .CHM_STS_STATE c = 4) ∧ (d.chmSt c).chb = false := by
  simp [Dev.ctlOk, Dev.chmState, and_assoc]

/-- In DRAINING, ABORTING and RESETTING, and while a Chamber Bond waits, CHM_CTL is refused (R245, log 163). -/
theorem Dev.ctlOk_moving (h : d.rf .CHM_STS_STATE c = 2 ∨ d.rf .CHM_STS_STATE c = 3 ∨ d.rf .CHM_STS_STATE c = 5 ∨
    d.rf .CHM_STS_STATE c = 4 ∧ (d.chmSt c).chb = true) : d.ctlOk c = false := by
  rw [← Bool.not_eq_true, Dev.ctlOk_iff]
  rintro ⟨-, hstate, hchb⟩
  rcases h with h | h | h | ⟨-, hwaits⟩
  · omega
  · omega
  · omega
  · exact Bool.false_ne_true (hchb.symm.trans hwaits)

/-- A DISABLED Chamber of the active Bond takes CHM_CTL where no Chamber Bond waits. -/
theorem Dev.ctlOk_disabled (hactive : d.active = true) (hstate : d.rf .CHM_STS_STATE c = 4) (hchb : (d.chmSt c).chb = false) :
    d.ctlOk c = true :=
  Dev.ctlOk_iff.2 ⟨by simp [Dev.chmDefined, Dev.chmState, hactive, hstate], .inr hstate, hchb⟩

/-- A refused CHM_CTL is one register write, whichever of the three it is (R245). -/
theorem Dev.chamberControl_refused (h : d.ctlOk c = false) :
    d.chamberEnable c = d.wb .CHM_STS_REFUSED c true ∧ d.chamberDisable c = d.wb .CHM_STS_REFUSED c true ∧
      d.chamberReset c = d.wb .CHM_STS_REFUSED c true := by
  have hrefused : (!d.ctlOk c) = true := by rw [h]; rfl
  exact ⟨if_pos hrefused, if_pos hrefused, if_pos hrefused⟩

theorem Dev.chamberEnable_of_ctlOk (h : d.ctlOk c = true) :
    d.chamberEnable c = (d.wf .CHM_CTL_ENABLE c 1).wf .CHM_STS_STATE c 1 :=
  if_neg (by simp [h])

end

/-- A command of CHM_CTL that is refused, by what it does to the device: it leaves REFUSED at 1 and changes nothing else (R245). -/
theorem exec_refused {s : State} {cmd : Instr} {c : Nat} {e : Dev} (hexec : exec cmd s = .next { s with dev := e })
    (hrefused : e = s.dev.wb .CHM_STS_REFUSED c true) :
    ∃ d, exec cmd s = .next { s with dev := d } ∧ d.rf .CHM_STS_REFUSED c = 1 ∧ s.dev.OnlyFields d [(.CHM_STS_REFUSED, c)] := by
  subst hrefused
  exact ⟨_, hexec, Dev.rf_wb_same .., .write _ _ List.mem_cons_self⟩

/-! ### The statements -/

/-- Settles O7: an ignored doorbell is one saturating count, and a taken one replaces the ring's TAIL, which has 32 bits. -/
theorem doorbellSetsTailOrCounts : Obligations.DoorbellSetsTailOrCounts := by
  intro s c r tail hon i ignored
  refine ⟨fun hignored => ?ignored, fun htaken => ?taken⟩
  case ignored =>
    refine ⟨_, (exec_doorbell hon c r tail).trans ?exec, Dev.rf_bump_same .., .write _ _ List.mem_cons_self⟩
    case exec => rw [Dev.doorbell_of_ignored hignored]
  case taken => rw [exec_doorbell hon, Dev.doorbell_of_taken htaken, u32_toNat, Dev.setRing]

/-- Settles O10: a Chamber that moves does not take CHM_CTL, so each of the three is one write of REFUSED; a DISABLED one takes
CHAMBER_ENABLE, which is two register writes. That CHM_CTL is refused while a Chamber Bond waits is the model's choice (log 163). -/
theorem chamberControlWhileMoving : Obligations.ChamberControlWhileMoving := by
  intro s c hon hactive
  refine ⟨fun hmoving cmd hcmd => ?moving, fun hdisabled hchb => ?disabled⟩
  case moving =>
    obtain ⟨henable, hdisable, hreset⟩ := Dev.chamberControl_refused (Dev.ctlOk_moving hmoving)
    simp only [List.mem_cons, List.not_mem_nil, or_false] at hcmd
    rcases hcmd with rfl | rfl | rfl
    · exact exec_refused (exec_chamberEnable hon c) henable
    · exact exec_refused (exec_chamberDisable hon c) hdisable
    · exact exec_refused (exec_chamberReset hon c) hreset
  case disabled =>
    have henable := Dev.chamberEnable_of_ctlOk (Dev.ctlOk_disabled hactive hdisabled hchb)
    refine ⟨_, (exec_chamberEnable hon c).trans (by rw [henable]), ?enabled, Dev.rf_wf_same .., ?frame⟩
    case enabled => rw [Dev.rf_wf_field _ _ _ _ (by decide), Dev.rf_wf_same]; rfl
    case frame => exact (Dev.OnlyFields.write _ _ (by simp)).snoc _ (by simp)

end Sys2Proof.Machine
end

section
/-!
PROOFS. The translation and fault chapter (08): what each access counter reads after a decay (R330).
-/

namespace Sys2Proof.Machine

/-! ### Tables whose values are mapped or left out -/

section
variable {α β : Type}

theorem sget_cons (d : α) (e : Nat × α) (m : Map α) (k : Nat) : sget d (e :: m) k = if e.1 = k then e.2 else sget d m k :=
  apply_ite (·.getD d) (e.1 = k) (some e.2) (kget m k)

/-- A key below all the keys of a table has no value of its own. -/
theorem sget_of_keysAbove (d : α) {m : Map α} {k : Nat} (h : keysAbove k m = true) : sget d m k = d := by
  induction m with
  | nil => rfl
  | cons e m ih =>
    simp only [keysAbove, Bool.and_eq_true, decide_eq_true_eq] at h
    obtain ⟨hlt, habove⟩ := h
    rw [sget_cons, if_neg hlt.ne', ih habove]

theorem keysAbove_mapValues (f : α → β) (m : Map α) (k : Nat) : keysAbove k (m.map fun e => (e.1, f e.2)) = keysAbove k m := by
  induction m with
  | nil => rfl
  | cons e m ih => simp [keysAbove, ih]

theorem keysRise_mapValues (f : α → β) (m : Map α) : keysRise (m.map fun e => (e.1, f e.2)) = keysRise m := by
  induction m with
  | nil => rfl
  | cons e m ih => simp [keysRise, keysAbove_mapValues, ih]

/-- A function of every value is a function of the value read, the default included. -/
theorem sget_mapValues (f : α → β) (d : α) (m : Map α) (k : Nat) : sget (f d) (m.map fun e => (e.1, f e.2)) k = f (sget d m k) := by
  induction m with
  | nil => rfl
  | cons e m ih => rw [List.map_cons, sget_cons, sget_cons, ih, apply_ite f]

/-- A table need not list the values equal to the default. The keys must rise: otherwise a second entry of the key would come to light. -/
theorem sget_filter_default [DecidableEq α] (d : α) {m : Map α} (h : keysRise m = true) (k : Nat) :
    sget d (m.filter fun e => e.2 != d) k = sget d m k := by
  induction m with
  | nil => rfl
  | cons e m ih =>
    simp only [keysRise, Bool.and_eq_true] at h
    obtain ⟨habove, hrise⟩ := h
    by_cases hd : e.2 = d
    case neg => rw [List.filter_cons_of_pos (by simpa using hd), sget_cons, sget_cons, ih hrise]
    case pos =>
      rw [List.filter_cons_of_neg (by simpa using hd), ih hrise, sget_cons, hd]
      split
      · next hk => exact sget_of_keysAbove d (hk ▸ habove)
      · rfl

end

/-! ### The access counters -/

theorem exec_accessCounterDecay {s : State} (hon : s.pkg.mode = .on) :
    exec .accessCounterDecay s = .next { s with dev := s.dev.counterDecay } :=
  congrArg _ (s.onDev_on Dev.counterDecay hon)

/-- A counter that is not listed reads 0, and so does the half of a counter of 1, which the decay no longer lists. -/
theorem Dev.counterDecay_halves {d : Dev} (h : keysRise d.xlt.acnt = true) (page : Nat) :
    sget 0 d.counterDecay.xlt.acnt page = sget 0 d.xlt.acnt page / 2 :=
  calc sget 0 d.counterDecay.xlt.acnt page
      = sget 0 (d.xlt.acnt.map fun e => (e.1, e.2 / 2)) page :=
        sget_filter_default 0 ((keysRise_mapValues (· / 2) d.xlt.acnt).trans h) page
    _ = sget 0 d.xlt.acnt page / 2 := sget_mapValues (· / 2) 0 d.xlt.acnt page

/-! ### The statement -/

/-- Settles O24: each listed counter is halved in its place, and leaving out those that are now 0 changes no reading. -/
theorem accessCountersAreHalved : Obligations.AccessCountersAreHalved :=
  fun _ hon hrise => ⟨_, exec_accessCounterDecay hon, Dev.counterDecay_halves hrise⟩

end Sys2Proof.Machine
end

section
/-!
PROOFS. The Mason and Lay list chapter (09): what a control-space write of a semaphore leaves in MSN_SEM and around it (R388).
-/

namespace Sys2Proof.Machine

/-! ### The write of a semaphore -/

theorem exec_semWrite {s : State} (h : s.Awake 227) (co : Fin 16) (n : Fin 64) (v : BitVec 32) :
    exec (.semWrite co n v) s = .next { s with dev := s.dev.semWrite co.val n.val v.toNat } :=
  congrArg _ (h.onDev (fun d => d.semWrite co.val n.val v.toNat))

/-- The field of a semaphore has 32 bits, as a brick's VALUE has: what a write of more bits leaves is cut to them. -/
theorem Dev.rf_semWrite_same (d : Dev) (co n v : Nat) : (d.semWrite co n v).rf .MSN_SEM_VALUE (co * 64 + n) = u32 v :=
  d.rf_wf_same .MSN_SEM_VALUE (co * 64 + n) v

theorem Dev.semWrite_onlyFields (d : Dev) (co n v : Nat) : d.OnlyFields (d.semWrite co n v) [(.MSN_SEM_VALUE, co * 64 + n)] :=
  .write d v List.mem_cons_self

/-! ### The statement -/

/-- Settles O25: in an awake domain the command is one field write, and the field holds all 32 bits of the value. -/
theorem semaphoreWriteSetsValue : Obligations.SemaphoreWriteSetsValue := by
  intro s co n v hon
  refine ⟨_, exec_semWrite hon co n v, ?value, s.dev.semWrite_onlyFields co.val n.val v.toNat⟩
  case value => rw [Dev.rf_semWrite_same, u32_toNat]

end Sys2Proof.Machine
end

section
/-!
PROOFS. The embedding table chapter (12): what a write of TBL_SKETCH leaves in its slot, in the other slots and around them (R501, R512).
-/

namespace Sys2Proof.Machine

/-! ### The write of a sketch slot -/

theorem exec_sketchWrite {s : State} (h : s.Awake 228) (n : Fin 8) (c : Fin 16) (table : BitVec 28) (en : Bool) :
    exec (.sketchWrite n c table en) s = .next { s with dev := s.dev.sketchWrite n.val c.val table.toNat en } :=
  congrArg _ (h.onDev (fun d => d.sketchWrite n.val c.val table.toNat en))

section
variable (d : Dev) (n c table : Nat) (en : Bool)

/-- The slot's counters and its filter are one entry of the table of sketches: a write drops it (R512). -/
theorem Dev.sketchWrite_sketch : (d.sketchWrite n c table en).tbl.sketch = kdel d.tbl.sketch n := rfl

theorem Dev.rf_sketchWrite_en : (d.sketchWrite n c table en).rf .TBL_SKETCH_EN n = b2n en := by
  rw [Dev.sketchWrite, Dev.rf_wf_field _ _ _ _ (by decide), Dev.rf_wf_field _ _ _ _ (by decide), Dev.rf_wb_same]

theorem Dev.rf_sketchWrite_table : (d.sketchWrite n c table en).rf .TBL_SKETCH_TABLE n = table % 2 ^ 28 := by
  rw [Dev.sketchWrite, Dev.rf_wf_field _ _ _ _ (by decide), Dev.rf_wf_same]
  rfl

theorem Dev.rf_sketchWrite_chamber : (d.sketchWrite n c table en).rf .TBL_SKETCH_CHAMBER n = c % 2 ^ 4 :=
  Dev.rf_wf_same _ .TBL_SKETCH_CHAMBER n c

/-- The rest of the write is three field writes of the slot. -/
theorem Dev.sketchWrite_onlyFields :
    ({ d with tbl.sketch := kdel d.tbl.sketch n } : Dev).OnlyFields (d.sketchWrite n c table en)
      [(.TBL_SKETCH_EN, n), (.TBL_SKETCH_TABLE, n), (.TBL_SKETCH_CHAMBER, n)] :=
  ((Dev.OnlyFields.write _ (b2n en) (by simp)).snoc table (by simp)).snoc c (by simp)

end

/-! ### The statement -/

/-- Settles O27: in an awake domain the command drops the slot's entry, and no other, and writes three fields of the slot, whose widths are
those of the command's operands. -/
theorem sketchWriteNamesTheTable : Obligations.SketchWriteNamesTheTable := by
  intro s n c table en hon
  refine ⟨_, exec_sketchWrite hon n c table en, Dev.rf_sketchWrite_en .., ?table, ?chamber, ?slot, ?others,
    s.dev.sketchWrite_onlyFields n.val c.val table.toNat en⟩
  case table => exact (Dev.rf_sketchWrite_table ..).trans (Nat.mod_eq_of_lt table.isLt)
  case chamber => exact (Dev.rf_sketchWrite_chamber ..).trans (Nat.mod_eq_of_lt c.isLt)
  case slot => rw [Dev.sketchWrite_sketch, kget_kdel_same]
  case others =>
    intro j hj
    rw [Dev.sketchWrite_sketch, kget_kdel_other _ hj]

end Sys2Proof.Machine
end

section
/-!
PROOFS. The Gallery chapter (13): what a write of GAL_CACHE_CLR leaves in the node cache (R524, R544).
-/

namespace Sys2Proof.Machine

/-! ### The cached nodes -/

/-- The filter in the statement's spelling, and the frame: the list of nodes is the only field that the write replaces. -/
theorem Dev.galCacheClr_eq_filter (d : Dev) (c : Nat) :
    d.galCacheClr c = { d with gal.nodes := d.gal.nodes.filter (fun n => n.chamber ≠ c) } := by
  have hkeep : d.gal.nodes.filter (fun n => n.chamber != c) = d.gal.nodes.filter (fun n => n.chamber ≠ c) :=
    List.filter_congr fun _ _ => decide_not.symm
  rw [Dev.galCacheClr, hkeep]

theorem exec_galCacheClr {s : State} (h : s.Awake 228) (c : Fin 16) :
    exec (.galCacheClr c) s = .next { s with dev := s.dev.galCacheClr c.val } :=
  congrArg _ (h.onDev (fun d => d.galCacheClr c.val))

/-! ### The statement -/

/-- Settles O28: in an awake domain the command is the filter of the cached nodes and nothing more. -/
theorem galleryCacheClearDropsTheChamber : Obligations.GalleryCacheClearDropsTheChamber := by
  intro s c hon
  rw [exec_galCacheClr hon, Dev.galCacheClr_eq_filter]

end Sys2Proof.Machine
end

section
/-!
PROOFS. The network and gateway chapter (14): which entries of the reply cache expire (R568), and what the PTP servo leaves when it loses
lock (R552).
-/

namespace Sys2Proof.Machine

/-! ### The reply cache -/

theorem exec_replyCacheExpire {s : State} (hon : s.pkg.mode = .on) (src : Nat) (sport : BitVec 16) (reqid : Nat) :
    exec (.replyCacheExpire src sport reqid) s = .next { s with dev := s.dev.cacheExpire src sport.toNat reqid } :=
  congrArg _ (s.onDev_on (fun d => d.cacheExpire src sport.toNat reqid) hon)

/-- An entry outlives an expiry exactly where its client, its port or its REQID is another. -/
theorem Dev.mem_cacheExpire_cache (d : Dev) (src sport reqid : Nat) (x : PDone) :
    x ∈ (d.cacheExpire src sport reqid).net.cache ↔
      x ∈ d.net.cache ∧ ¬ (x.src = src ∧ x.sport = sport ∧ x.reqid = reqid) := by
  rw [Dev.cacheExpire, List.mem_filter]
  simp only [Bool.not_eq_true', ← Bool.not_eq_true, Bool.and_eq_true, beq_iff_eq, and_assoc]

/-! ### The loss of lock -/

theorem exec_ptpLossOfLock {s : State} (hon : s.pkg.mode = .on) :
    exec .ptpLossOfLock s = .next { s with dev := s.dev.ptpLoss } :=
  congrArg _ (s.onDev_on Dev.ptpLoss hon)

/-- The slew is no register, so ending it may come before the one register write. -/
theorem Dev.ptpLoss_eq_write (d : Dev) :
    d.ptpLoss = ({ d with net.slew := 0 } : Dev).wb .NET_PTP_CFG_LOCKED 0 false := rfl

theorem Dev.rf_ptpLoss_locked (d : Dev) : d.ptpLoss.rf .NET_PTP_CFG_LOCKED = 0 := by
  rw [Dev.ptpLoss_eq_write, Dev.rf_wb_same]
  rfl

theorem Dev.ptpLoss_gt (d : Dev) : d.ptpLoss.gt = d.gt := rfl

theorem Dev.ptpLoss_onlyFields (d : Dev) :
    ({ d with net.slew := 0 } : Dev).OnlyFields d.ptpLoss [(.NET_PTP_CFG_LOCKED, 0)] := by
  rw [Dev.ptpLoss_eq_write]
  exact .write _ _ List.mem_cons_self

/-! ### The statements -/

/-- Settles O29: with the rails up the command replaces the reply cache, and nothing else, by a filter of itself. -/
theorem replyCacheExpiry : Obligations.ReplyCacheExpiry :=
  fun s src sport reqid hon =>
    ⟨_, exec_replyCacheExpire hon src sport reqid, s.dev.mem_cacheExpire_cache src sport.toNat reqid⟩

/-- Settles O30: with the rails up the command is one register write beside the end of the slew, and neither is GT. -/
theorem ptpLossKeepsGt : Obligations.PtpLossKeepsGt :=
  fun s hon => ⟨_, exec_ptpLossOfLock hon, s.dev.rf_ptpLoss_locked, s.dev.ptpLoss_gt, s.dev.ptpLoss_onlyFields⟩

end Sys2Proof.Machine
end

section
/-!
PROOFS. The memory chapter (05): what a byte of home memory reads after a write, inside and outside the range written.
-/

namespace Sys2Proof.Machine

/-! ### Reading what a splice put in place -/

/-- Below its first address a list of cells reads as empty. -/
theorem sget_cellsOf_below (l : Bytes) {a x : Nat} (h : x < a) : sget 0 (cellsOf a l) x = 0 := by
  have hnone : kget (cellsOf a l) x = none := kget_none_of _ _ fun c hc => by have := mem_cellsOf l a hc; omega
  rw [sget, hnone, Option.getD_none]

/-- The cells list a byte at its address; a zero byte is not listed and reads 0 (log 2). -/
theorem sget_cellsOf (l : Bytes) (a i : Nat) : sget 0 (cellsOf a l) (a + i) = l.getD i 0 := by
  induction l generalizing a i with
  | nil => rfl
  | cons b l ih =>
    cases i with
    | zero =>
      unfold cellsOf
      split
      · next hb => rw [sget_cellsOf_below l (by omega), List.getD_cons_zero, hb]
      · exact (sget_cons ..).trans (if_pos rfl)
    | succ i =>
      have htail : sget 0 (cellsOf (a + 1) l) (a + (i + 1)) = l.getD i 0 := by rw [← ih (a + 1) i]; congr 1; omega
      unfold cellsOf
      split
      · rw [htail, List.getD_cons_succ]
      · rw [sget_cons, if_neg (by simp), htail, List.getD_cons_succ]

/-- Inside the range that it replaces, a splice reads as the new cells. -/
theorem sget_splice_inside (m : List Host.Cell) (a n : Nat) (new : List Host.Cell) (x : Nat) (h : a ≤ x ∧ x < a + n) :
    sget 0 (splice m a n new) x = sget 0 new x := by
  have hbelow : ¬ x < a := by omega
  have habove : ¬ a + n ≤ x := by omega
  unfold sget splice
  rw [kget_append, kget_append, kget_filter m (fun k => decide (k < a)), kget_filter m (fun k => decide (a + n ≤ k))]
  simp [hbelow, habove]

theorem Dev.byte_wrMem_inside (d : Dev) (a : Nat) (l : Bytes) {i : Nat} (h : i < l.length) : (d.wrMem a l).byte (a + i) = l.getD i 0 :=
  (sget_splice_inside d.mem a l.length (cellsOf a l) (a + i) (by omega)).trans (sget_cellsOf l a i)

theorem Dev.byte_wrMem_outside (d : Dev) (a : Nat) (l : Bytes) {x : Nat} (h : x < a ∨ a + l.length ≤ x) :
    (d.wrMem a l).byte x = d.byte x :=
  sget_splice_outside d.mem a l.length (cellsOf a l) x
    (fun _ hc => by obtain ⟨hlow, hhigh, -⟩ := mem_cellsOf l a hc; exact ⟨hlow, hhigh⟩) h

/-! ### The statement -/

/-- Settles O15: a write is a splice of the cells that list its bytes, and a splice of rising cells in their range is canonical. -/
theorem memoryReadsWhatWasWritten : Obligations.MemoryReadsWhatWasWritten :=
  fun d a l hwf => ⟨d.wrMem_canonical a l hwf, fun _ hi => d.byte_wrMem_inside a l hi, fun _ hx => d.byte_wrMem_outside a l hx⟩

end Sys2Proof.Machine
end

section
/-!
PROOFS. The CXL side of the coherence chapter (04): the messages that change nothing (log 67) and the answer to BIConflict (R178, log 19).
-/

namespace Sys2Proof.Machine

theorem State.onDev_id (s : State) : s.onDev (fun d => d) = s := by
  unfold State.onDev
  split <;> rfl

theorem exec_memSpecRd (s : State) : exec .memSpecRd s = .next s := congrArg Host.Outcome.next s.onDev_id

theorem exec_biConflictAck (s : State) : exec .biConflictAck s = .next s := congrArg Host.Outcome.next s.onDev_id

theorem exec_biConflict {s : State} {port : Fin 16} (h : s.Awake (229 + port.val)) (h' : s.Awake 226) (q : CxlReq) :
    exec (.biConflict port q) s = .next { s with dev := s.dev.biConflict port.val q } :=
  congrArg Host.Outcome.next (h.onPort h' fun d => d.biConflict port.val q)

section
variable {d : Dev} {port : Nat} (q : CxlReq)

theorem Dev.isCxl_iff : d.isCxl port = true ↔ d.rf .HUB_FP_CFG_MODE port = 2 := beq_iff_eq

/-- On a CXL port two messages go out: the answer, and then the credit (newest first). -/
theorem Dev.biConflict_cxl (h : d.rf .HUB_FP_CFG_MODE port = 2) :
    d.biConflict port q =
      { d with out := .cxlCredit port 1 :: .cxl port .biConflictAck q.snp.toNat (q.hpa.toNat / 64 * 64) false [] :: d.out } :=
  if_pos (Dev.isCxl_iff.2 h)

theorem Dev.biConflict_not_cxl (h : d.rf .HUB_FP_CFG_MODE port ≠ 2) : d.biConflict port q = d :=
  if_neg fun hcxl => h (Dev.isCxl_iff.1 hcxl)

end

/-! ### The statement -/

/-- Settles O18: two commands without an effect on the device (log 67), and the two branches of BICONFLICT (log 19). -/
theorem biConflictIsAcknowledged : Obligations.BiConflictIsAcknowledged := by
  refine ⟨fun s => ⟨exec_memSpecRd s, exec_biConflictAck s⟩, fun s port q hport hhub => ⟨fun hcxl => ?cxl, fun hmode => ?other⟩⟩
  case cxl => rw [exec_biConflict hport hhub, Dev.biConflict_cxl q hcxl]
  case other => rw [exec_biConflict hport hhub, Dev.biConflict_not_cxl q hmode]

end Sys2Proof.Machine
end

section
/-!
PROOFS. The Bond chapter (15): what OPEN, ABANDON, SELECT and an undefined OP of BND_CMD leave while no command runs (R589, R612, R613).
-/

namespace Sys2Proof.Machine

/-! ### The end of a command -/

theorem exec_bndOpen {s : State} (h : s.Awake 228) (t i : BitVec 4) :
    exec (.bndOpen t i) s = .next { s with dev := s.dev.bndOpen t.toNat i.toNat } :=
  congrArg _ (h.onDev fun d => d.bndOpen t.toNat i.toNat)

theorem exec_bndAbandon {s : State} (h : s.Awake 228) : exec .bndAbandon s = .next { s with dev := s.dev.bndAbandon } :=
  congrArg _ (h.onDev Dev.bndAbandon)

theorem exec_bndSelect {s : State} (h : s.Awake 228) (slot : BitVec 32) :
    exec (.bndSelect slot) s = .next { s with dev := s.dev.bndSelect slot.toNat } :=
  congrArg _ (h.onDev fun d => d.bndSelect slot.toNat)

theorem exec_bndCmdBadOp {s : State} (h : s.Awake 228) : exec .bndCmdBadOp s = .next { s with dev := s.dev.bndBadOp } :=
  congrArg _ (h.onDev Dev.bndBadOp)

section
variable (d : Dev) (code off : Nat)

theorem Dev.rf_bErr_err : (d.bErr code off).rf .BND_STS_ERR = code % 2 ^ 8 := by
  rw [Dev.bErr, Dev.rf_wf_field _ _ _ _ (by decide), Dev.rf_wf_same]
  rfl

theorem Dev.bErr_onlyFields : d.OnlyFields (d.bErr code off) [(.BND_STS_ERR, 0), (.BND_STS_ERR_OFFSET, 0)] :=
  (Dev.OnlyFields.write d _ (by simp)).snoc _ (by simp)

theorem Dev.rf_bErr_selected : (d.bErr code off).rf .BND_STS_SELECTED = d.rf .BND_STS_SELECTED := by
  rw [Dev.bErr, Dev.rf_wf_field _ _ _ _ (by decide), Dev.rf_wf_field _ _ _ _ (by decide)]

end

/-- A command that ends with an error code and leaves the device `d` otherwise. -/
theorem exec_ends_with_code {c : Instr} {s : State} {d e : Dev} {code : Nat} (hexec : exec c s = .next { s with dev := e }) (he : e = d.bErr code 0)
    (hcode : code < 2 ^ 8) :
    ∃ e, exec c s = .next { s with dev := e } ∧ e.rf .BND_STS_ERR = code ∧ d.OnlyFields e [(.BND_STS_ERR, 0), (.BND_STS_ERR_OFFSET, 0)] := by
  subst he
  exact ⟨_, hexec, (Dev.rf_bErr_err ..).trans (Nat.mod_eq_of_lt hcode), Dev.bErr_onlyFields ..⟩

/-! ### The commands while BUSY is 0 -/

section
variable {d : Dev} (hbusy : d.rf .BND_STS_BUSY ≠ 1)
include hbusy

theorem Dev.bndOpen_closed {target index : Nat} (hstore : d.led.store = none) (htarget : target ≤ 6) (hindex : target = 3 → index < 8) :
    d.bndOpen target index = Dev.bErr { d with led.store := some { target := target, index := index, bytes := [] } } 0 0 := by
  have hrange : ¬ (6 < target ∨ target = 3 ∧ 8 ≤ index) := by omega
  simp [Dev.bndOpen, (d.rb_eq_false _ _).2 hbusy, hstore, hrange]

theorem Dev.bndOpen_open (target index : Nat) (hstore : d.led.store ≠ none) : d.bndOpen target index = d.bErr 0xB 0 := by
  simp [Dev.bndOpen, (d.rb_eq_false _ _).2 hbusy, Option.isSome_iff_ne_none.2 hstore]

theorem Dev.bndAbandon_open (hstore : d.led.store ≠ none) : d.bndAbandon = Dev.bErr { d with led.store := none } 0 0 := by
  simp [Dev.bndAbandon, (d.rb_eq_false _ _).2 hbusy, hstore]

theorem Dev.bndAbandon_closed (hstore : d.led.store = none) : d.bndAbandon = d.bErr 0xB 0 := by
  simp [Dev.bndAbandon, (d.rb_eq_false _ _).2 hbusy, hstore]

theorem Dev.bndSelect_slot {slot : Nat} (h : slot ≤ 1) :
    d.bndSelect slot = (Dev.wf { d with led.selected := slot } .BND_STS_SELECTED 0 slot).bErr 0 0 := by
  simp [Dev.bndSelect, (d.rb_eq_false _ _).2 hbusy, Nat.not_lt.2 h]

theorem Dev.bndSelect_beyond {slot : Nat} (h : 1 < slot) : d.bndSelect slot = d.bErr 8 0 := by
  simp [Dev.bndSelect, (d.rb_eq_false _ _).2 hbusy, h]

theorem Dev.bndBadOp_free : d.bndBadOp = d.bErr 2 0 := by
  simp [Dev.bndBadOp, (d.rb_eq_false _ _).2 hbusy]

end

/-! ### The statement -/

/-- Settles O32: each command ends with its code, after its one change of the Ledger where it succeeds. -/
theorem bondStoreCommands : Obligations.BondStoreCommands := by
  intro s t i slot hawake hbusy err
  refine ⟨fun hstore ht hi => ?opens, fun hstore => ?opened, fun hstore => ?abandons, fun hstore => ?nothing, fun hslot => ?selects,
    fun hslot => ?beyond, ?badOp⟩
  case opens => exact exec_ends_with_code (exec_bndOpen hawake t i) (Dev.bndOpen_closed hbusy hstore ht hi) (by decide)
  case opened => exact exec_ends_with_code (exec_bndOpen hawake t i) (Dev.bndOpen_open hbusy _ _ hstore) (by decide)
  case abandons => exact exec_ends_with_code (exec_bndAbandon hawake) (Dev.bndAbandon_open hbusy hstore) (by decide)
  case nothing => exact exec_ends_with_code (exec_bndAbandon hawake) (Dev.bndAbandon_closed hbusy hstore) (by decide)
  case selects =>
    refine ⟨_, (exec_bndSelect hawake slot).trans (by rw [Dev.bndSelect_slot hbusy hslot]), ?selected, Dev.rf_bErr_err .., ?frame⟩
    case selected => rw [Dev.rf_bErr_selected, Dev.rf_wf_same]; exact Nat.mod_eq_of_lt (Nat.lt_succ_of_le hslot)
    case frame => exact ((Dev.OnlyFields.write _ _ (by simp)).snoc _ (by simp)).snoc _ (by simp)
  case beyond => exact exec_ends_with_code (exec_bndSelect hawake slot) (Dev.bndSelect_beyond hbusy hslot) (by decide)
  case badOp => exact exec_ends_with_code (exec_bndCmdBadOp hawake) (Dev.bndBadOp_free hbusy) (by decide)

end Sys2Proof.Machine
end

section
/-!
PROOFS. The error and counter chapter (16): which log slots LOG_FREE frees (R645), and the entry that a telemetry tick writes (R643).
-/

namespace Sys2Proof.Machine

/-! ### The error log -/

theorem exec_logFree {s : State} (h : s.Awake 228) (all : Bool) (slot : BitVec 13) :
    exec (.logFree all slot) s = .next { s with dev := s.dev.logFree all slot.toNat } :=
  congrArg _ (h.onDev fun d => d.logFree all slot.toNat)

/-! ### The telemetry ring -/

theorem exec_telemetryTick {s : State} (hon : s.pkg.mode = .on) : exec .telemetryTick s = .next { s with dev := s.dev.telemetryTick } :=
  congrArg _ (s.onDev_on Dev.telemetryTick hon)

/-- The counters of a telemetry entry right after the entry before it (R643). -/
def Tlm.zero : Tlm := { t0r := 0, t0w := 0, t1r := 0, cells := 0, busy := 0, recs := 0, logs := 0 }

section
variable (d : Dev)

/-- The telemetry entry: GT and the seven counters (R643). -/
def Dev.tlmEntry : Bytes :=
  leBytes 8 d.gt ++ leBytes 8 d.err.tlm.t0r ++ leBytes 8 d.err.tlm.t0w ++ leBytes 8 d.err.tlm.t1r ++ leBytes 8 d.err.tlm.cells ++
    leBytes 8 d.err.tlm.busy ++ leBytes 8 d.err.tlm.recs ++ leBytes 8 d.err.tlm.logs

/-- The place of the next entry in the ring of 16,384 (R643). -/
def Dev.tlmPlace : Nat := d.rf .ERR_TLM_PTR_TAIL % 16384

/-- The device with the entry in its place and the counters at 0, TAIL not yet moved. -/
def Dev.tlmLogged : Dev := { d with err.tlm := Tlm.zero, err.tlmRing := kput d.err.tlmRing d.tlmPlace d.tlmEntry }

theorem Dev.tlmEntry_length : d.tlmEntry.length = 64 := by
  simp [Dev.tlmEntry]

theorem Dev.tlmEntry_gt : d.tlmEntry.take 8 = leBytes 8 d.gt := by
  simp only [Dev.tlmEntry, List.append_assoc]
  exact List.take_left' (leBytes_length ..)

end

theorem Dev.telemetryTick_off {d : Dev} (h : d.rf .ERR_TLM_CFG_EN ≠ 1) : d.telemetryTick = d :=
  if_neg (Bool.eq_false_iff.1 ((d.rb_eq_false _ _).2 h))

theorem Dev.telemetryTick_on {d : Dev} (hen : d.rf .ERR_TLM_CFG_EN = 1) (hstream : d.rf .ERR_TLM_CFG_STREAM ≠ 1) :
    d.telemetryTick = d.tlmLogged.inc .ERR_TLM_PTR_TAIL := by
  have hkept : (d.tlmLogged.inc .ERR_TLM_PTR_TAIL).rb .ERR_TLM_CFG_STREAM = false :=
    (Dev.rb_eq_false _ _ _).2 (by rwa [Dev.inc, Dev.rf_wf_field _ _ _ _ (by decide)])
  exact (if_pos ((d.rb_eq_true _ _).2 hen)).trans (if_neg (Bool.eq_false_iff.1 hkept))

/-! ### The statements -/

/-- Settles O33: with ALL 1 the log is empty, with ALL 0 one key is deleted from it. -/
theorem logFreeFreesSlots : Obligations.LogFreeFreesSlots :=
  fun _ slot hawake => ⟨exec_logFree hawake true slot, _, exec_logFree hawake false slot, kget_kdel_same .., fun _ hj => kget_kdel_other _ hj⟩

/-- Settles O34: a tick with EN 1 puts one entry in its place of the ring and moves TAIL, which is one register write. -/
theorem telemetryEntryAtTheTail : Obligations.TelemetryEntryAtTheTail := by
  intro s hon
  refine ⟨fun hoff => ?off, fun hen hstream => ?logged⟩
  case off => rw [exec_telemetryTick hon, Dev.telemetryTick_off hoff]
  case logged =>
    have hexec : exec .telemetryTick s = .next { s with dev := s.dev.tlmLogged.inc .ERR_TLM_PTR_TAIL } := by
      rw [exec_telemetryTick hon, Dev.telemetryTick_on hen hstream]
    exact ⟨_, hexec, ⟨_, kget_kput_same .., s.dev.tlmEntry_length, s.dev.tlmEntry_gt⟩, fun _ hj => kget_kput_other _ _ hj, rfl,
      Dev.rf_wf_same .., .write _ _ List.mem_cons_self⟩

end Sys2Proof.Machine
end

section
/-!
PROOFS. The Tally and composition chapter (17): the views that the manager sets (R663), and what ABORT and the end of the grace leave
(R671, R672).
-/

namespace Sys2Proof.Machine

/-! ### Views -/

theorem exec_reinstate {s : State} (h : s.Awake 228) (x : BitVec 8) :
    exec (.reinstate x) s = .next { s with dev := s.dev.reinstate x.toNat } :=
  congrArg _ (h.onDev fun d => d.reinstate x.toNat)

theorem exec_probation {s : State} (h : s.Awake 228) (x : BitVec 8) :
    exec (.probation x) s = .next { s with dev := s.dev.probationCmd x.toNat } :=
  congrArg _ (h.onDev fun d => d.probationCmd x.toNat)

theorem exec_expel {s : State} (h : s.Awake 228) (x : BitVec 8) :
    exec (.expel x) s = .next { s with dev := s.dev.expelCmd x.toNat } :=
  congrArg _ (h.onDev fun d => d.expelCmd x.toNat)

section
variable {d : Dev} {x : Nat}

/-- The view of another device that stays in service is one register write (R659). -/
theorem Dev.setView_other {st : Nat} (hx : x ≠ d.devnum) (hgone : st ≠ 0) (hexpelled : st ≠ 3) : d.setView x st = d.wf .TLY_DEV_STATE x st := by
  simp [Dev.setView, hx, hgone, hexpelled]

theorem Dev.reinstate_member (hmember : d.member x = true) (hx : x ≠ d.devnum) :
    d.reinstate x = ((d.wf .TLY_DEV_STATE x 1).wf .TLY_DEV_PENALTY x 0).wf .TLY_DEV_SCORE x 255 := by
  simp [Dev.reinstate, hmember, Dev.setView_other hx]

theorem Dev.probationCmd_member (hmember : d.member x = true) (hx : x ≠ d.devnum) : d.probationCmd x = d.wf .TLY_DEV_STATE x 2 :=
  (if_pos hmember).trans (Dev.setView_other hx (by decide) (by decide))

/-- A device that is no member has no view to set. -/
theorem Dev.views_not_member (h : d.member x = false) : d.reinstate x = d ∧ d.probationCmd x = d ∧ d.expelCmd x = d := by
  simp [Dev.reinstate, Dev.probationCmd, Dev.expelCmd, h]

end

/-! ### The end of a staged change -/

theorem exec_cmpAbort {s : State} (h : s.Awake 228) : exec .cmpAbort s = .next { s with dev := s.dev.wb .CMP_STS_STAGED_V 0 false } :=
  congrArg _ (h.onDev Dev.cmpAbort)

theorem exec_graceEnd {s : State} (hon : s.pkg.mode = .on) : exec .graceEnd s = .next { s with dev := s.dev.wb .CMP_STS_GRACE 0 false } :=
  congrArg _ (s.onDev_on Dev.graceEnd hon)

/-! ### The statements -/

/-- Settles O36: a member's view is one register write, to which REINSTATE adds penalty and score. -/
theorem managerSetsViews : Obligations.ManagerSetsViews := by
  intro s x hawake
  refine ⟨fun hmember hx => ⟨?reinstated, ?probation⟩, fun hmember => ?stranger⟩
  case reinstated =>
    refine ⟨_, (exec_reinstate hawake x).trans (by rw [Dev.reinstate_member hmember hx]), ?state, ?penalty, Dev.rf_wf_same .., ?frame⟩
    case state => rw [Dev.rf_wf_field _ _ _ _ (by decide), Dev.rf_wf_field _ _ _ _ (by decide), Dev.rf_wf_same]; rfl
    case penalty => rw [Dev.rf_wf_field _ _ _ _ (by decide), Dev.rf_wf_same]; rfl
    case frame => exact ((Dev.OnlyFields.write _ _ (by simp)).snoc _ (by simp)).snoc _ (by simp)
  case probation =>
    exact ⟨_, (exec_probation hawake x).trans (by rw [Dev.probationCmd_member hmember hx]), Dev.rf_wf_same .., .write _ _ List.mem_cons_self⟩
  case stranger =>
    obtain ⟨hreinstate, hprobation, hexpel⟩ := Dev.views_not_member hmember
    rw [exec_reinstate hawake, exec_probation hawake, exec_expel hawake, hreinstate, hprobation, hexpel]
    exact ⟨rfl, rfl, rfl⟩

/-- Settles O37: each of the two commands is one register write. -/
theorem abortAndGraceEnd : Obligations.AbortAndGraceEnd :=
  fun _ hawake =>
    ⟨⟨_, exec_cmpAbort hawake, Dev.rf_wb_same .., .write _ _ List.mem_cons_self⟩,
      ⟨_, exec_graceEnd hawake.1, Dev.rf_wb_same .., .write _ _ List.mem_cons_self⟩⟩

end Sys2Proof.Machine
end

section
/-!
PROOFS. The power chapter (18): which domains go Shaded or Dim when they have been idle (R696, log 80).
-/

namespace Sys2Proof.Machine

theorem exec_shadeIdle {s : State} (hon : s.pkg.mode = .on) (k : Fin 264) :
    exec (.shadeIdle k) s = .next { s with dev := s.dev.shadeIdle k.val } :=
  congrArg _ (s.onDev_on (fun d => d.shadeIdle k.val) hon)

theorem exec_dimIdle {s : State} (hon : s.pkg.mode = .on) (k : Fin 264) :
    exec (.dimIdle k) s = .next { s with dev := s.dev.dimIdle k.val } :=
  congrArg _ (s.onDev_on (fun d => d.dimIdle k.val) hon)

section
variable {d : Dev} {k : Nat}

/-- The domain is that of a Mason with a run (log 80). -/
def Dev.Runs (d : Dev) (k : Nat) : Prop := k < 144 ∧ (d.mason k).run ≠ none

/-- The guard of DIM_IDLE (R696, R711). -/
def Dev.Dims (d : Dev) (k : Nat) : Prop :=
  k < 209 ∧ (d.rf .PWR_DOM_STS_STATE k = 1 ∨ d.rf .PWR_DOM_STS_STATE k = 2) ∧ d.rf .PWR_POLICY_DIM_IDLE ≠ 0 ∧
    bit (d.rf .PWR_POLICY_DIM_GROUPS) (dimBit k) = true ∧ ¬ d.Runs k

/-- The model's flag of a Mason with a run. -/
theorem Dev.runs_flag_iff : (decide (k < 144) && (d.mason k).run.isSome) = false ↔ ¬ d.Runs k := by
  rw [Dev.Runs, ← Option.isSome_iff_ne_none, ← Bool.not_eq_true, Bool.and_eq_true, decide_eq_true_eq]

theorem Dev.shadeIdle_shades (hstate : d.rf .PWR_DOM_STS_STATE k = 1) (hruns : ¬ d.Runs k) : d.shadeIdle k = d.wf .PWR_DOM_STS_STATE k 2 :=
  if_pos ⟨hstate, Dev.runs_flag_iff.2 hruns⟩

theorem Dev.shadeIdle_stays (h : d.rf .PWR_DOM_STS_STATE k ≠ 1 ∨ d.Runs k) : d.shadeIdle k = d :=
  if_neg fun ⟨hstate, hflag⟩ => h.elim (fun hne => hne hstate) (Dev.runs_flag_iff.1 hflag)

theorem Dev.dimIdle_dims (h : d.Dims k) : d.dimIdle k = d.wf .PWR_DOM_STS_STATE k 3 := by
  obtain ⟨hengine, hstate, hidle, hgroup, hruns⟩ := h
  exact if_pos ⟨hengine, hstate, hidle, hgroup, Dev.runs_flag_iff.2 hruns⟩

theorem Dev.dimIdle_stays (h : ¬ d.Dims k) : d.dimIdle k = d :=
  if_neg fun ⟨hengine, hstate, hidle, hgroup, hflag⟩ => h ⟨hengine, hstate, hidle, hgroup, Dev.runs_flag_iff.1 hflag⟩

end

/-! ### The statement -/

/-- Settles O38: each command is one register write under its guard, and nothing otherwise. -/
theorem idleDomainsGoShadedAndDim : Obligations.IdleDomainsGoShadedAndDim := by
  intro s k hon st busy dims
  refine ⟨fun hstate hbusy => ?shades, fun hstays => ?shaded, fun hdims => ?dims, fun hdims => ?dimmed⟩
  case shades =>
    exact ⟨_, (exec_shadeIdle hon k).trans (by rw [Dev.shadeIdle_shades hstate hbusy]), Dev.rf_wf_same .., .write _ _ List.mem_cons_self⟩
  case shaded => rw [exec_shadeIdle hon, Dev.shadeIdle_stays hstays]
  case dims =>
    exact ⟨_, (exec_dimIdle hon k).trans (by rw [Dev.dimIdle_dims hdims]), Dev.rf_wf_same .., .write _ _ List.mem_cons_self⟩
  case dimmed => rw [exec_dimIdle hon, Dev.dimIdle_stays hdims]

end Sys2Proof.Machine
end

section
/-!
PROOFS. The package chapter (20): the SEQ_EN outputs agree with the sequencer's place after every step (R741 to R744), how the rails rise and
fall, and what a command can do to the sequencer, the device and the queue (logs 60 to 62).
-/

namespace Sys2Proof.Machine

/-! ### The outputs of the sequencer's place -/

/-- The sequencer that goes to a place has the outputs of that place (R741, R743). -/
theorem Pkg.go_sound (p : Pkg) (m : SeqMode) : (p.go m).Sound := by
  cases m <;> exact ⟨rfl, rfl, rfl, rfl⟩

theorem Pkg.Sound.powerDown {p : Pkg} (h : p.Sound) : p.powerDown.Sound := by
  unfold Pkg.powerDown
  split
  · exact p.go_sound _
  · exact p.go_sound _
  · exact h

theorem Pkg.powerDown_on {p : Pkg} (h : p.mode = .on) : p.powerDown = p.go (.down 3) := by
  simp only [Pkg.powerDown, h]

theorem Pkg.powerDown_up {p : Pkg} {k : Fin 4} (h : p.mode = .up k) : p.powerDown = p.go (.down k) := by
  simp only [Pkg.powerDown, h]

/-! ### The power-up from a stage on -/

/-- The power-up from stage `k` on: it raises the stage, and the next ones as far as their PGs are high already (R741). -/
def upFrom (k : Fin 4) : PkgDev → PkgDev :=
  match k with
  | 0 => up0 | 1 => up1 | 2 => up2 | 3 => up3

section
variable (x : PkgDev)

theorem upFrom_awaits {k : Fin 4} (h : x.1.stagePg k = false) : upFrom k x = (x.1.go (.up k), x.2) :=
  match k, h with
  | 0, h | 1, h | 2, h | 3, h => if_neg (Bool.eq_false_iff.1 h)

theorem upFrom_complete {k : Fin 4} (hk : k.val < 3) (h : x.1.stagePg k = true) : upFrom k x = upFrom ⟨k.val + 1, by omega⟩ x :=
  match k, hk, h with
  | 0, _, h | 1, _, h | 2, _, h => if_pos h

theorem upFrom_complete_last (h : x.1.stagePg 3 = true) :
    upFrom 3 x = (x.1.go .on, { x.2 with pwr.rise := (bootPwr 2 [] false).rise }) := if_pos h

/-- However far the power-up gets, it ends by going to a place. -/
theorem up3_sound : (up3 x).1.Sound := by
  unfold up3; split <;> exact Pkg.go_sound ..

theorem up2_sound : (up2 x).1.Sound := by
  unfold up2; split
  · exact up3_sound x
  · exact Pkg.go_sound ..

theorem up1_sound : (up1 x).1.Sound := by
  unfold up1; split
  · exact up2_sound x
  · exact Pkg.go_sound ..

theorem up0_sound : (up0 x).1.Sound := by
  unfold up0; split
  · exact up1_sound x
  · exact Pkg.go_sound ..

theorem pgRise_up {k : Fin 4} (i : Fin 9) (h : x.1.mode = .up k) : pgRise i x = upFrom k (x.1.setPg i true, x.2) := by
  have hmode : (x.1.setPg i true).mode = .up k := h
  simp only [pgRise, hmode]
  match k with
  | 0 | 1 | 2 | 3 => rfl

/-! ### The power-down and the failed power-up -/

theorem downEnd_sound : (downEnd x).1.Sound := by
  unfold downEnd; split
  · exact up0_sound _
  · exact Pkg.go_sound ..

theorem downNext_sound (k : Fin 4) : (downNext x k).1.Sound :=
  match k with
  | 0 => downEnd_sound x
  | 1 | 2 | 3 => x.1.go_sound _

theorem downNext_pos {k : Fin 4} (h : 0 < k.val) : downNext x k = (x.1.go (.down ⟨k.val - 1, by omega⟩), x.2) :=
  match k, h with
  | 1, _ | 2, _ | 3, _ => rfl

/-- A failure in stage `k` of the power-up lowers that stage; the first has the power-up repeated, the next asserts FAULT_N (R742, 18 R701). -/
theorem powerFail_up {k : Fin 4} (h : x.1.mode = .up k) :
    powerFail x =
      ({ x.1 with again := !x.2.pwr.repeated, fault := x.2.pwr.repeated || x.1.fault }.go (.down k), (powerFail x).2) := by
  refine Prod.ext ?_ rfl
  cases hrep : x.2.pwr.repeated
  all_goals
    simp only [powerFail, hrep]
    exact Pkg.powerDown_up h

theorem pgFall_down {k : Fin 4} (i : Fin 9) (h : x.1.mode = .down k) (hpg : (x.1.setPg i false).stagePg k = false) :
    pgFall i x = downNext (x.1.setPg i false, x.2) k := by
  have hmode : (x.1.setPg i false).mode = .down k := h
  simp only [pgFall, hmode, hpg, Bool.false_eq_true, if_false]

theorem pgTimeout_up {k : Fin 4} {i : Fin 9} (h : x.1.mode = .up k) (hi : railStage i = k) (hpg : x.1.pg.getLsbD i.val = false) :
    pgTimeout i x = powerFail x := by
  simp only [pgTimeout, h]
  exact if_pos ⟨hi, hpg⟩

theorem pgTimeout_down {k : Fin 4} {i : Fin 9} (h : x.1.mode = .down k) (hi : railStage i = k) : pgTimeout i x = downNext x k := by
  simp only [pgTimeout, h]
  exact if_pos hi

theorem resetHold_on (h : x.1.mode = .on) :
    resetHold x = ({ x.1 with resetN := false, fault := false, again := false }.go (.down 3), x.2.unpowered 1) := by
  simp only [resetHold, h]
  rfl

theorem resetRelease_wait (h : x.1.mode = .wait) : resetRelease x = up0 ({ x.1 with resetN := true, fault := false }, x.2) := by
  simp only [resetRelease, h]

theorem powerApplied_off (modules : List Nat) (h : x.1.mode = .off) :
    powerApplied modules x = ({ x.1 with resetN := false, again := false, fault := false, therm := false }.go .wait,
      { x.2.unpowered 0 with pwr.modules := modules, gt := 0 }) := by
  simp only [powerApplied, h]

theorem aonUndervoltage_supplied (h : x.1.mode ≠ .off) :
    aonUndervoltage x = ({ x.1 with again := false, fault := false, therm := false }.go .off, x.2.unpowered 0) := by
  unfold aonUndervoltage
  split
  · next hoff => exact absurd hoff h
  · rfl

end

/-! ### What the loss of the rails leaves of memory -/

theorem Dev.unpowered_mem (d : Dev) (cause : Nat) :
    (d.unpowered cause).mem = d.mem.filter (fun c => decide (0x20000 * 2 ^ 28 ≤ c.1)) := rfl

/-- Without its rails the device keeps bytes of T2 extents alone (R743, R744). -/
theorem Dev.t2_of_mem_unpowered {d : Dev} {cause : Nat} {c : Host.Cell} (h : c ∈ (d.unpowered cause).mem) : 0x20000 * 2 ^ 28 ≤ c.1 := by
  rw [Dev.unpowered_mem, List.mem_filter] at h
  exact of_decide_eq_true h.2

/-! ### The package's operations keep the outputs in agreement -/

/-- An operation on sequencer and device keeps the SEQ_EN outputs in agreement with where the sequencer stands. -/
def KeepsSound (g : PkgDev → PkgDev) : Prop := ∀ x, x.1.Sound → (g x).1.Sound

theorem powerFail_keepsSound : KeepsSound powerFail := by
  intro x h
  simp only [powerFail]
  split
  · exact Pkg.Sound.powerDown (p := { x.1 with fault := true, again := false }) h
  · exact Pkg.Sound.powerDown (p := { x.1 with again := true }) h

theorem powerApplied_keepsSound (modules : List Nat) : KeepsSound (powerApplied modules) := by
  intro x h
  unfold powerApplied
  split
  · exact Pkg.go_sound ..
  · exact h

theorem resetRelease_keepsSound : KeepsSound resetRelease := by
  intro x h
  simp only [resetRelease]
  split
  case h_1 => exact h
  case h_2 => exact up0_sound _
  case h_3 => exact up0_sound _
  case h_4 => exact h
  case h_5 => exact Pkg.Sound.powerDown (p := { x.1 with resetN := true, fault := false, again := true }) h
  case h_6 => exact h

theorem resetHold_keepsSound : KeepsSound resetHold := by
  intro x h
  have hdown := Pkg.Sound.powerDown (p := { x.1 with resetN := false, fault := false, again := false }) h
  simp only [resetHold]
  split
  case h_1 => exact h
  case h_2 => exact Pkg.go_sound ..
  case h_3 => exact hdown
  case h_4 => exact hdown
  case h_5 => exact h

theorem pgRise_keepsSound (i : Fin 9) : KeepsSound (pgRise i) := by
  intro x h
  simp only [pgRise]
  split
  · split
    · exact up0_sound _
    · exact up1_sound _
    · exact up2_sound _
    · exact up3_sound _
  · exact h

theorem pgFall_keepsSound (i : Fin 9) : KeepsSound (pgFall i) := by
  intro x h
  have hfail := powerFail_keepsSound (x.1.setPg i false, x.2) h
  simp only [pgFall]
  split
  · split
    · exact h
    · exact downNext_sound ..
  · split
    · exact hfail
    · exact h
  · split
    · exact Pkg.Sound.powerDown (p := { x.1.setPg i false with fault := true, again := false }) h
    · exact hfail
  · exact h

theorem pgTimeout_keepsSound (i : Fin 9) : KeepsSound (pgTimeout i) := by
  intro x h
  unfold pgTimeout
  split
  · split
    · exact powerFail_keepsSound x h
    · exact h
  · split
    · exact downNext_sound ..
    · exact h
  · exact h

theorem aonUndervoltage_keepsSound : KeepsSound aonUndervoltage := by
  intro x h
  unfold aonUndervoltage
  split
  · exact h
  · exact Pkg.go_sound ..

theorem riseLate_keepsSound (k : Nat) : KeepsSound (riseLate k) := by
  intro x h
  simp only [riseLate]
  split
  · exact powerFail_keepsSound (x.1, x.2.riseTimeout k) h
  · exact h

theorem thermalSample_keepsSound (temps : List Nat) : KeepsSound (thermalSample temps) := by
  intro x h
  simp only [thermalSample]
  split
  · exact Pkg.go_sound ..
  · exact h

/-! ### What a command can do -/

/-- The nine commands of the package are effects on sequencer and device together, each of which keeps the outputs in agreement. -/
theorem exec_ofPackage {c : Instr} (h : c.ofPackage = true) : ∃ g, (∀ s, exec c s = .next (s.onPkg g)) ∧ KeepsSound g := by
  cases c with
  | powerApplied modules => exact ⟨_, fun _ => rfl, powerApplied_keepsSound modules⟩
  | resetNRelease => exact ⟨_, fun _ => rfl, resetRelease_keepsSound⟩
  | resetNHold => exact ⟨_, fun _ => rfl, resetHold_keepsSound⟩
  | pgRise rail => exact ⟨_, fun _ => rfl, pgRise_keepsSound rail⟩
  | pgFall rail => exact ⟨_, fun _ => rfl, pgFall_keepsSound rail⟩
  | pgTimeout rail => exact ⟨_, fun _ => rfl, pgTimeout_keepsSound rail⟩
  | aonUndervoltage => exact ⟨_, fun _ => rfl, aonUndervoltage_keepsSound⟩
  | riseTimeout domain => exact ⟨_, fun _ => rfl, riseLate_keepsSound domain.val⟩
  | thermalSample temps => exact ⟨_, fun _ => rfl, thermalSample_keepsSound temps⟩
  | _ => exact absurd h Bool.false_ne_true

/-- Every other command is an effect on the device alone. -/
theorem exec_not_ofPackage {c : Instr} (h : c.ofPackage = false) : ∃ f, ∀ s, exec c s = .next (s.onDev f) := by
  cases c with
  | powerApplied | resetNRelease | resetNHold | pgRise | pgFall | pgTimeout | aonUndervoltage | riseTimeout | thermalSample =>
    exact nomatch h
  | _ => exact ⟨_, fun _ => rfl⟩

theorem exec_keepsSound {c : Instr} {s t : State} (h : s.pkg.Sound) (hexec : exec c s = .next t) : t.pkg.Sound := by
  cases hc : c.ofPackage with
  | true =>
    obtain ⟨g, hg, hkeeps⟩ := exec_ofPackage hc
    obtain rfl := Host.Outcome.next.inj ((hg s).symm.trans hexec)
    exact hkeeps (s.pkg, s.dev) h
  | false =>
    obtain ⟨f, hf⟩ := exec_not_ofPackage hc
    obtain rfl := Host.Outcome.next.inj ((hf s).symm.trans hexec)
    rwa [State.onDev_pkg]

/-- A command of the package, by what its operation answers. -/
theorem exec_onPkg {c : Instr} {s : State} {g : PkgDev → PkgDev} {p : Pkg} {d : Dev} (hexec : exec c s = .next (s.onPkg g))
    (hg : g (s.pkg, s.dev) = (p, d)) : exec c s = .next { s with pkg := p, dev := d } := by
  simp only [hexec, State.onPkg, hg]

/-! ### A step -/

theorem step_cons {c : Instr} {rest : List Instr} {s : State} (h : s.pending = c :: rest) : step s = exec c { s with pending := rest } := by
  simp only [step, h]

theorem step_nil {s : State} (h : s.pending = []) : step s = .next s.idle := by
  simp only [step, h]

theorem State.idle_off {s : State} (h : s.pkg.mode = .off) : s.idle = s := by
  simp only [State.idle, h]

theorem State.idle_supplied {s : State} (h : s.pkg.mode ≠ .off) :
    s.idle = { s with dev := { s.dev with gt := s.dev.gt + 10 } }.onDev (fun d => d.txGo.svcGo) := by
  unfold State.idle
  split
  · next hoff => exact absurd hoff h
  · rfl

theorem State.idle_down {s : State} (h : s.pkg.mode ≠ .off) (h' : s.pkg.mode ≠ .on) :
    s.idle = { s with dev := { s.dev with gt := s.dev.gt + 10 } } :=
  (State.idle_supplied h).trans (State.onDev_unpowered _ _ h')

theorem State.idle_on {s : State} (h : s.pkg.mode = .on) :
    s.idle = { s with dev := { s.dev with gt := s.dev.gt + 10 }.txGo.svcGo } :=
  (State.idle_supplied (by simp [h])).trans (State.onDev_on _ _ h)

/-! ### The statements -/

/-- Settles O43: a command of the package goes to a place, or leaves place and outputs alone; every other command, and the passing of time,
leaves the sequencer as it is. -/
theorem sequencerStaysSound : Obligations.SequencerStaysSound := by
  intro s t hsound hstep
  cases hq : s.pending with
  | nil =>
    obtain rfl := Host.Outcome.next.inj ((step_nil hq).symm.trans hstep)
    rwa [State.idle_pkg]
  | cons c rest => exact exec_keepsSound (s := { s with pending := rest }) hsound ((step_cons hq).symm.trans hstep)

/-- Settles O42: a command is an effect on the device alone, which needs the rails, or one of the package's. -/
theorem onlyThePackageMovesTheSequencer : Obligations.OnlyThePackageMovesTheSequencer := by
  intro c s
  cases hc : c.ofPackage with
  | true =>
    obtain ⟨g, hg, -⟩ := exec_ofPackage hc
    exact ⟨_, hg s, s.onPkg_pending g, nofun⟩
  | false =>
    obtain ⟨f, hf⟩ := exec_not_ofPackage hc
    exact ⟨_, hf s, s.onDev_pending f, fun _ => ⟨s.onDev_pkg f, s.onDev_unpowered f⟩⟩

/-- Settles O40: the rise is `upFrom` the stage that the sequencer has reached, and a PG of that stage that is late fails the power-up. -/
theorem railsRiseInOrder : Obligations.RailsRiseInOrder := by
  intro s
  refine ⟨fun hwait hpg => ?released, fun rail k hup => ?rising, fun modules hoff => ?applied⟩
  case released =>
    have hrise := (resetRelease_wait (s.pkg, s.dev) hwait).trans (upFrom_awaits (k := 0) _ hpg)
    exact exec_onPkg rfl hrise
  case rising =>
    have hrise := pgRise_up (s.pkg, s.dev) rail hup
    refine ⟨fun hpg => ?awaits, fun hk hpg hnext => ?next, fun hk hpg => ?last, fun hrail hlow => ?late⟩
    case awaits => exact ⟨_, exec_onPkg rfl (hrise.trans (upFrom_awaits _ hpg)), rfl, rfl⟩
    case next =>
      have hnext := hrise.trans ((upFrom_complete _ hk hpg).trans (upFrom_awaits _ hnext))
      exact ⟨_, exec_onPkg rfl hnext, rfl, Pkg.go_sound .., rfl⟩
    case last =>
      obtain rfl : k = 3 := Fin.ext hk
      exact ⟨_, exec_onPkg rfl (hrise.trans (upFrom_complete_last _ hpg)), rfl, Pkg.go_sound .., rfl, rfl, rfl⟩
    case late =>
      have hfail := (pgTimeout_up (s.pkg, s.dev) hup hrail hlow).trans (powerFail_up _ hup)
      exact ⟨_, exec_onPkg rfl hfail, rfl, Pkg.go_sound .., rfl, rfl, rfl, rfl⟩
  case applied =>
    have hwait := exec_onPkg (c := .powerApplied modules) rfl (powerApplied_off (s.pkg, s.dev) modules hoff)
    exact ⟨_, hwait, rfl, Pkg.go_sound .., rfl, rfl, rfl, rfl, rfl, rfl⟩

/-- Settles O41: the power-down goes to one place after the other, downwards, and the loss of VDD_AON to the unsupplied place at once. -/
theorem railsFallInOrder : Obligations.RailsFallInOrder := by
  intro s
  refine ⟨fun hon => ?held, fun rail k hk hdown hpg => ?falls, fun rail k hk hdown hrail => ?late, fun hsupplied => ?lost⟩
  case held => exact ⟨_, exec_onPkg rfl (resetHold_on (s.pkg, s.dev) hon), rfl, rfl, rfl, rfl, rfl, rfl⟩
  case falls =>
    have hlower := (pgFall_down (s.pkg, s.dev) rail hdown hpg).trans (downNext_pos _ hk)
    exact ⟨_, exec_onPkg rfl hlower, rfl, Pkg.go_sound .., rfl⟩
  case late =>
    have hlower := (pgTimeout_down (s.pkg, s.dev) hdown hrail).trans (downNext_pos _ hk)
    exact ⟨_, exec_onPkg rfl hlower, rfl, Pkg.go_sound .., rfl, rfl⟩
  case lost =>
    have hoff := exec_onPkg (c := .aonUndervoltage) rfl (aonUndervoltage_supplied (s.pkg, s.dev) hsupplied)
    exact ⟨_, hoff, rfl, rfl, rfl, rfl, rfl, fun _ hc => Dev.t2_of_mem_unpowered hc⟩

/-- Settles O1: the front of the queue alone decides which command runs. -/
theorem stepRunsTheFrontCommand : Obligations.StepRunsTheFrontCommand := fun _ _ _ h => step_cons h

/-- Settles O2: an idle step moves GT where the package is supplied, and the rest of it is an effect on the device, which needs the rails. That
time passes so is the model's choice (logs 62, 131). -/
theorem idleStepLetsTimePass : Obligations.IdleStepLetsTimePass := by
  intro s hq
  refine ⟨fun hoff => ?off, fun hsupplied hdown => ?supplied, fun hon => ?on⟩
  case off => rw [step_nil hq, State.idle_off hoff]
  case supplied => rw [step_nil hq, State.idle_down hsupplied hdown]
  case on => rw [step_nil hq, State.idle_on hon]

/-- Settles O4: at reset every rail is up, no byte of memory is listed and no command waits. -/
theorem soundAtReset : Obligations.SoundAtReset :=
  ⟨⟨rfl, rfl, rfl, rfl⟩, rfl, List.forall_mem_nil _⟩

end Sys2Proof.Machine
end

section
/-!
PROOFS. The completion of every command (02 to 20). But for the commands of the package, the meaning of a command is its rule's operation
under `State.onDev`: with the rails up it completes with that operation, and queue and sequencer stay. So each statement of a family is
`next_onDev` at each of its commands.
-/

namespace Sys2Proof.Machine

/-- With the rails up an effect on the device takes place, and nothing else does (log 61). -/
theorem next_onDev {s : State} (hon : s.pkg.mode = .on) (f : Dev → Dev) :
    (.next (s.onDev f) : Host.Outcome State Fault Refusal) = .next { s with dev := f s.dev } :=
  congrArg _ (s.onDev_on f hon)

/-- Settles O44: the commands of extents and HDM decoders (02). -/
theorem extentCommandsComplete : Obligations.ExtentCommandsComplete := by
  intro s hon
  and_intros
  all_goals
    intros
    exact next_onDev hon _

/-- Settles O45: the commands of links and the Hub (03). -/
theorem linkCommandsComplete : Obligations.LinkCommandsComplete := by
  intro s hon
  and_intros
  all_goals
    intros
    exact next_onDev hon _

/-- Settles O46: the commands of Mortar and CXL coherence (04), the two commands that leave the device as it is among them (log 67). -/
theorem mortarCommandsComplete : Obligations.MortarCommandsComplete := by
  intro s hon
  and_intros
  all_goals
    intros
    exact next_onDev hon _

/-- Settles O47: the commands of Chambers, rings and descriptors (06). -/
theorem chamberCommandsComplete : Obligations.ChamberCommandsComplete := by
  intro s hon
  and_intros
  all_goals
    intros
    exact next_onDev hon _

/-- Settles O48: the commands of tiers, settles, schedules and cartridges (07). -/
theorem tierCommandsComplete : Obligations.TierCommandsComplete := by
  intro s hon
  and_intros
  all_goals
    intros
    exact next_onDev hon _

/-- Settles O49: the commands of translation, invalidation and faults (08). -/
theorem translationCommandsComplete : Obligations.TranslationCommandsComplete := by
  intro s hon
  and_intros
  all_goals
    intros
    exact next_onDev hon _

/-- Settles O50: the commands of Masons and Lay lists (09). -/
theorem masonCommandsComplete : Obligations.MasonCommandsComplete := by
  intro s hon
  and_intros
  all_goals
    intros
    exact next_onDev hon _

/-- Settles O51: the commands of Flowstone (10). -/
theorem flowstoneCommandsComplete : Obligations.FlowstoneCommandsComplete := by
  intro s hon
  and_intros
  all_goals
    intros
    exact next_onDev hon _

/-- Settles O52: the commands of Hoards and handoffs (11). -/
theorem hoardCommandsComplete : Obligations.HoardCommandsComplete := by
  intro s hon
  and_intros
  all_goals
    intros
    exact next_onDev hon _

/-- Settles O53: the commands of embedding tables (12). -/
theorem tableCommandsComplete : Obligations.TableCommandsComplete := by
  intro s hon
  and_intros
  all_goals
    intros
    exact next_onDev hon _

/-- Settles O54: the commands of Gallery search (13). -/
theorem galleryCommandsComplete : Obligations.GalleryCommandsComplete := by
  intro s hon
  and_intros
  all_goals
    intros
    exact next_onDev hon _

/-- Settles O55: the commands of the network, gateways and the Portal (14). -/
theorem networkCommandsComplete : Obligations.NetworkCommandsComplete := by
  intro s hon
  and_intros
  all_goals
    intros
    exact next_onDev hon _

/-- Settles O56: the commands of the Bond, identity and the Ledger (15). -/
theorem bondCommandsComplete : Obligations.BondCommandsComplete := by
  intro s hon
  and_intros
  all_goals
    intros
    exact next_onDev hon _

/-- Settles O57: the commands of errors, scrub and telemetry (16). -/
theorem errorCommandsComplete : Obligations.ErrorCommandsComplete := by
  intro s hon
  and_intros
  all_goals
    intros
    exact next_onDev hon _

/-- Settles O58: the commands of Tally and live composition (17). -/
theorem tallyCommandsComplete : Obligations.TallyCommandsComplete := by
  intro s hon
  and_intros
  all_goals
    intros
    exact next_onDev hon _

/-- Settles O60: the commands of control space and timers of registers (19). -/
theorem registerCommandsComplete : Obligations.RegisterCommandsComplete := by
  intro s hon
  and_intros
  all_goals
    intros
    exact next_onDev hon _

/-- Settles O59: the commands of power, clocks and resets (18) are effects on the device, those of the package (20) on sequencer and device
together, which need no rails. -/
theorem powerCommandsComplete : Obligations.PowerCommandsComplete := by
  intro s hon
  exact ⟨fun _ => rfl, rfl, rfl, fun _ => rfl, fun _ => rfl, fun _ => rfl, rfl, fun _ => next_onDev hon _, fun _ => rfl,
    fun _ => next_onDev hon _, fun _ => next_onDev hon _, fun _ => next_onDev hon _, next_onDev hon _, next_onDev hon _, next_onDev hon _,
    next_onDev hon _, next_onDev hon _, next_onDev hon _, fun _ => next_onDev hon _, next_onDev hon _, fun _ => rfl⟩

end Sys2Proof.Machine
end
